-- ==== Sys2Proof/Word.lean ====
section
/-! DEFINITION. The word types of the block: register numbers and command words are 8-bit numbers,
and a bit sequence is a list of bits with the first element least significant.
The block has no byte order, no addresses and no machine word (20_memory.md R34, R38). -/

namespace Sys2Proof

/-- One byte, as the opcode table gives a command (30_encoding.md R43). -/
abbrev Byte := BitVec 8

/-- A number of the register-number space, 0x00 to 0xFF (20_memory.md R35). -/
abbrev RegNum := BitVec 8

/-- A command word `c[7:0]` (30_encoding.md R43). -/
abbrev CmdWord := BitVec 8

/-- A bit sequence `[b_0, …, b_(w-1)]`, `b_0` first and least significant (00_scope.md section 5). -/
abbrev Bits := List Bool

end Sys2Proof
end

