-- ==== Sys2Proof/Config.lean ====
section
/-! DEFINITION. What the spec fixes as a constant of the block, and its two open implementation
parameters (00_scope.md R8). Both parameters are ARGUMENTS of the model, as R8 asks:
`sinTurns` is an argument of `Machine.Sample.value` and of every claim about a sample's real value,
`envCapacity` is the field of that name in `Machine.State`, which no step changes. -/

namespace Sys2Proof.Config

/-- The frame length: 60 slots, one per second of the minute (00_scope.md R8, 10_state.md R23). -/
abbrev slotsPerMinute : Nat := 60

/-- The reference value of the parameter `envCapacity`: no bound (00_scope.md R8, 60_exceptions.md R111). -/
def envCapacityReference : Option Nat := none

/-- The type of the parameter `sinTurns`: a phase in turns to the carrier's value (00_scope.md R8). -/
abbrev SinTurns := Rat → Real

/-- The reference value of `sinTurns`, `sin(2·π·x)` (00_scope.md R8). -/
def SinTurns.IsReference (f : SinTurns) : Prop := ∀ x : Rat, f x = Real.sin (2 * Real.pi * (x : Real))

/-- Property QUARTER_EXACT of 42_envelope_modulator.md R87. -/
def SinTurns.QuarterExact (f : SinTurns) : Prop :=
  f 0 = 0 ∧ f (1 / 4) = 1 ∧ f (1 / 2) = 0 ∧ f (3 / 4) = -1

/-- Property BOUNDED of 42_envelope_modulator.md R87. -/
def SinTurns.Bounded (f : SinTurns) : Prop := ∀ x : Rat, |f x| ≤ 1

end Sys2Proof.Config
end

