-- ==== Sys2Proof/Syntax.lean ====
section
/-! DEFINITION. The syntax: the four commands, the register names, the slot values, and the host's
actions (30_encoding.md R44, R47; 10_state.md R11, R23). -/

namespace Sys2Proof

/-- The block's commands, one per row of the opcode table. They carry no operands (30_encoding.md R44, R46). -/
inductive Instr where
  | encodeBcd
  | buildFrame
  | modulate
  | generate
  deriving DecidableEq, Repr

/-- The block's registers, exactly those of 10_state.md R11. -/
inductive Reg where
  | calMinute | calHour | calDay | calMonth | calYear | calWeekday
  | calDstActive | calDstChangePending
  | bcdValue | bcdWidth
  | cfgSampleRate | cfgCarrierFrequency | cfgReducedDuration0 | cfgReducedDuration1
  | cfgLowAmplitude | cfgHighAmplitude
  | bcdOut | frame | envSamples | envSampleRate | envPeakScale
  | status | cmd
  deriving DecidableEq, Repr

/-- The direction of a host access, recorded by AccessRefused (60_exceptions.md R108). -/
inductive Dir where
  | read
  | write
  deriving DecidableEq, Repr

/-- What a slot of the frame holds (00_scope.md section 5, 10_state.md R23). -/
inductive SlotValue where
  | bit0
  | bit1
  | noPulse
  deriving DecidableEq, Repr

/-- A frame: exactly 60 slots, slot 0 first (10_state.md R23). -/
structure Frame where
  slots : List SlotValue
  length_eq : slots.length = Config.slotsPerMinute
  deriving DecidableEq, Repr

/-- The bit image of a frame: slot `s` in bits `[2s+1:2s]` (30_encoding.md R51). -/
abbrev FrameImage := BitVec 120

/-- A value the host writes: the literals of 30_encoding.md R47. A frame is given as its bit image,
so that the reserved slot code 0b11 can be written (30_encoding.md R51, 60_exceptions.md R110). -/
inductive HostValue where
  | int (v : Int)
  | rat (q : Rat)
  | bool (b : Bool)
  | frame (image : FrameImage)
  deriving DecidableEq, Repr

/-- One action of the host (30_encoding.md R47). `CMD <mnemonic>` is the write of a command word to
register 0x3F (95_test_vectors.md section 7). -/
inductive HostAction where
  | write (reg : RegNum) (value : HostValue)
  | read (reg : RegNum)
  | reset
  deriving DecidableEq, Repr

end Sys2Proof
end

