-- ==== Sys2Proof/Decode.lean ====
section
/-! DEFINITION. The encodings: command words, register numbers and the frame's bit image, each with
its decoder and its encoder (30_encoding.md R43 to R45, R51; 10_state.md R11). -/

namespace Sys2Proof

/-! ### Command words -/

/-- One row of the opcode table: the bits that are compared, and what they must be. -/
structure OpcodeRow where
  mask : CmdWord
  pattern : CmdWord
  instr : Instr
  deriving DecidableEq, Repr

/-- The opcode map of 30_encoding.md R44. All eight bits are the opcode. -/
def opcodeTable : List OpcodeRow :=
  [ ⟨0xFF, 0x01, .encodeBcd⟩,
    ⟨0xFF, 0x02, .buildFrame⟩,
    ⟨0xFF, 0x03, .modulate⟩,
    ⟨0xFF, 0x04, .generate⟩ ]

/-- Why bytes are no command. -/
inductive DecodeError where
  /-- There is no byte to read. -/
  | noWord
  /-- The command words 0x00 and 0x05 to 0xFF are reserved (30_encoding.md R45). -/
  | reserved (c : CmdWord)
  deriving DecidableEq, Repr

/-- The command a word selects, or its rejection as reserved (30_encoding.md R44, R45). -/
def decodeWord (c : CmdWord) : Except DecodeError Instr :=
  match opcodeTable.find? (fun row => c &&& row.mask == row.pattern) with
  | some row => .ok row.instr
  | none => .error (.reserved c)

/-- Decode the first command of any byte list: every command is one word (30_encoding.md R43). -/
def decode : List Byte → Except DecodeError (Instr × List Byte)
  | [] => .error .noWord
  | c :: rest =>
    match decodeWord c with
    | .ok i => .ok (i, rest)
    | .error e => .error e

/-- The command word of a command, written from the opcode map of 30_encoding.md R44. -/
def encode : Instr → CmdWord
  | .encodeBcd => 0x01
  | .buildFrame => 0x02
  | .modulate => 0x03
  | .generate => 0x04

/-- What the decoder reads from an `nbits`-bit instruction whose bits are `w`; a command word has
8 bits, so a number that needs more is no command (30_encoding.md R43). -/
def decodeTableWord (nbits w : Nat) : Option Instr :=
  let bits := w % 2 ^ nbits
  if bits < 256 then (decode [BitVec.ofNat 8 bits]).toOption.map Prod.fst else none

/-! ### Register numbers -/

/-- The number the host uses for a register (10_state.md R11). -/
def Reg.number : Reg → RegNum
  | .calMinute => 0x00
  | .calHour => 0x01
  | .calDay => 0x02
  | .calMonth => 0x03
  | .calYear => 0x04
  | .calWeekday => 0x05
  | .calDstActive => 0x06
  | .calDstChangePending => 0x07
  | .bcdValue => 0x08
  | .bcdWidth => 0x09
  | .cfgSampleRate => 0x10
  | .cfgCarrierFrequency => 0x11
  | .cfgReducedDuration0 => 0x12
  | .cfgReducedDuration1 => 0x13
  | .cfgLowAmplitude => 0x14
  | .cfgHighAmplitude => 0x15
  | .bcdOut => 0x20
  | .frame => 0x21
  | .envSamples => 0x22
  | .envSampleRate => 0x23
  | .envPeakScale => 0x24
  | .status => 0x30
  | .cmd => 0x3F

/-- Every register, in number order (10_state.md R11). -/
def Reg.all : List Reg :=
  [ .calMinute, .calHour, .calDay, .calMonth, .calYear, .calWeekday, .calDstActive,
    .calDstChangePending, .bcdValue, .bcdWidth, .cfgSampleRate, .cfgCarrierFrequency,
    .cfgReducedDuration0, .cfgReducedDuration1, .cfgLowAmplitude, .cfgHighAmplitude,
    .bcdOut, .frame, .envSamples, .envSampleRate, .envPeakScale, .status, .cmd ]

/-- The register a number names, or `none` for an unassigned number (20_memory.md R35). -/
def Reg.ofNumber? (n : RegNum) : Option Reg := Reg.all.find? (fun r => r.number == n)

/-! ### The frame's bit image -/

/-- The 2-bit slot code of 30_encoding.md R51. -/
def SlotValue.code : SlotValue → BitVec 2
  | .bit0 => 0b00
  | .bit1 => 0b01
  | .noPulse => 0b10

/-- The slot value of a slot code; 0b11 is reserved (30_encoding.md R51). -/
def slotOfCode? (c : BitVec 2) : Option SlotValue :=
  if c = 0b00 then some .bit0
  else if c = 0b01 then some .bit1
  else if c = 0b10 then some .noPulse
  else none

/-- The code of slot `s` in a bit image: bits `[2s+1:2s]` (30_encoding.md R51). -/
def slotCodeAt (image : FrameImage) (s : Nat) : BitVec 2 := image.extractLsb' (2 * s) 2

/-- Decode `n` slots from slot `s` up. The error is the lowest slot with the reserved code
(60_exceptions.md R110). -/
def decodeSlots (image : FrameImage) :
    (n s : Nat) → Except Nat { slots : List SlotValue // slots.length = n }
  | 0, _ => .ok ⟨[], rfl⟩
  | n + 1, s =>
    match slotOfCode? (slotCodeAt image s) with
    | none => .error s
    | some v =>
      match decodeSlots image n (s + 1) with
      | .error e => .error e
      | .ok ⟨vs, h⟩ => .ok ⟨v :: vs, by simp [h]⟩

/-- The frame of a bit image, or the lowest slot that holds the reserved code
(30_encoding.md R51, 60_exceptions.md R110). -/
def decodeFrame (image : FrameImage) : Except Nat Frame :=
  match decodeSlots image Config.slotsPerMinute 0 with
  | .error s => .error s
  | .ok ⟨slots, h⟩ => .ok ⟨slots, h⟩

/-- A slot list as a number, the first slot in the lowest two bits (30_encoding.md R51). -/
def slotsToNat : List SlotValue → Nat
  | [] => 0
  | v :: rest => v.code.toNat + 4 * slotsToNat rest

/-- The bit image of a frame (30_encoding.md R51). -/
def encodeFrame (f : Frame) : FrameImage := BitVec.ofNat 120 (slotsToNat f.slots)

end Sys2Proof
end

