-- ==== Sys2Proof/Machine/State.lean ====
section
/-! DEFINITION. The state: every register of 10_state.md R11 with its `⊥` marker, the host's pending
actions and the values its reads returned, and the parameter `envCapacity`; the state after reset;
the faults of 60_exceptions.md R106 and the model's refusals. -/

namespace Sys2Proof.Machine

/-- One envelope sample as the exact pair `(env(n), phase(n))` (10_state.md R25). -/
structure Sample where
  env : Rat
  phase : Rat
  deriving DecidableEq, Repr

/-- The error kinds STATUS reports (10_state.md R29, 30_encoding.md R63). -/
inductive StatusKind where
  | none
  | fieldRange
  | encodingWidth
  | config
  deriving DecidableEq, Repr

/-- The STATUS record (10_state.md R29). -/
structure Status where
  kind : StatusKind
  field : RegNum
  value : Rat
  aux : Nat
  deriving DecidableEq, Repr

/-- What a host read returns: the whole value of the register (43_pipeline.md R98). -/
inductive ReadValue where
  | int (v : Int)
  | nat (v : Nat)
  | rat (q : Rat)
  | bool (b : Bool)
  | bits (b : Bits)
  | frame (f : Frame)
  | samples (xs : List Sample)
  | status (st : Status)
  deriving DecidableEq, Repr

/-- One host read that has happened: the register number and the value returned. -/
structure ReadRecord where
  reg : RegNum
  value : ReadValue
  deriving DecidableEq, Repr

/-- The state of the machine. A register field is `none` exactly when the register holds `⊥`, which is
the spec's own state and its reset value (10_state.md R12, 70_reset_and_hazards.md R117).
CMD keeps no value (10_state.md R21), so it has no field. -/
structure State where
  calMinute : Option Int
  calHour : Option Int
  calDay : Option Int
  calMonth : Option Int
  calYear : Option Int
  calWeekday : Option Int
  calDstActive : Option Bool
  calDstChangePending : Option Bool
  bcdValue : Option Int
  bcdWidth : Option Nat
  cfgSampleRate : Option Int
  cfgCarrierFrequency : Option Rat
  cfgReducedDuration0 : Option Rat
  cfgReducedDuration1 : Option Rat
  cfgLowAmplitude : Option Rat
  cfgHighAmplitude : Option Rat
  bcdOut : Option Bits
  frame : Option Frame
  envSamples : Option (List Sample)
  envSampleRate : Option Int
  envPeakScale : Option Rat
  status : Status
  /-- The host's actions that have not happened yet, next first (30_encoding.md R47; log entry 1). -/
  program : List HostAction
  /-- What the host's reads have returned, oldest first (log entry 3). -/
  returned : List ReadRecord
  /-- The implementation parameter `envCapacity` (00_scope.md R8; log entry 5). No step changes it. -/
  envCapacity : Option Nat
  deriving DecidableEq, Repr

/-- The model-level faults, the five of 60_exceptions.md R106. Each ends the run and changes no register. -/
inductive Fault where
  /-- A command or a host read uses a register that holds `⊥` (60_exceptions.md R107). Raised by the
  operand reads of every command and by host reads. Safe: the spec names this stop. -/
  | unwrittenRead (reg : RegNum)
  /-- The host reads CMD, writes a read-only register, or accesses an unassigned number
  (60_exceptions.md R108). Raised by host reads and writes. Safe: the spec names this stop. -/
  | accessRefused (reg : RegNum) (dir : Dir)
  /-- The host writes a reserved command word to CMD (60_exceptions.md R109). Safe: the spec names this stop. -/
  | reservedCommand (c : CmdWord)
  /-- The host writes FRAME with the reserved slot code, lowest such slot (60_exceptions.md R110).
  Safe: the spec names this stop. -/
  | reservedSlotCode (slot : Nat)
  /-- MODULATE or GENERATE would produce more samples than `envCapacity` (60_exceptions.md R111).
  Safe: the spec names this stop. -/
  | capacityExceeded (samples : Nat)
  deriving DecidableEq, Repr

/-- What the model gives no meaning. -/
inductive Refusal where
  /-- A command without a meaning yet. Raised by no arm of this model. Safe. -/
  | notModelled (mnemonic : String)
  /-- A host write of a value outside the domain of the writable register it names, which no rule
  describes (10_state.md R11; log entry 6). Raised by host writes. Safe: the model stops. -/
  | valueOutsideDomain (reg : RegNum)
  deriving DecidableEq, Repr

/-- STATUS after reset and after a command that ends without an error
(70_reset_and_hazards.md R117, 60_exceptions.md R103). -/
def Status.success : Status := ⟨.none, 0, 0, 0⟩

/-- The machine right after reset: every register `⊥`, STATUS NONE (70_reset_and_hazards.md R117).
The host has no action pending and has read nothing, and the capacity is the reference value. -/
def State.reset : State where
  calMinute := none
  calHour := none
  calDay := none
  calMonth := none
  calYear := none
  calWeekday := none
  calDstActive := none
  calDstChangePending := none
  bcdValue := none
  bcdWidth := none
  cfgSampleRate := none
  cfgCarrierFrequency := none
  cfgReducedDuration0 := none
  cfgReducedDuration1 := none
  cfgLowAmplitude := none
  cfgHighAmplitude := none
  bcdOut := none
  frame := none
  envSamples := none
  envSampleRate := none
  envPeakScale := none
  status := Status.success
  program := []
  returned := []
  envCapacity := Config.envCapacityReference

end Sys2Proof.Machine
end

