-- ==== Sys2Proof/Machine/Flags.lean ====
section
/-! DEFINITION. STATUS, the block's only status flags (10_state.md R33): its kind codes and what each
block error records in it (60_exceptions.md R99, R100; 30_encoding.md R63). -/

namespace Sys2Proof.Machine

/-- The code of a STATUS kind (30_encoding.md R63). -/
def StatusKind.code : StatusKind → Nat
  | .none => 0
  | .fieldRange => 1
  | .encodingWidth => 2
  | .config => 3

/-- The block errors with their info (60_exceptions.md R99, R100). -/
inductive BlockError where
  | fieldRange (reg : Reg) (value : Int)
  | encodingWidth (reg : Reg) (value : Int) (width : Nat)
  | config (reg : Reg) (value : Rat)
  deriving DecidableEq, Repr

/-- What a block error records in STATUS (60_exceptions.md R100). -/
def BlockError.status : BlockError → Status
  | .fieldRange reg v => ⟨.fieldRange, reg.number, v, 0⟩
  | .encodingWidth reg v w => ⟨.encodingWidth, reg.number, v, w⟩
  | .config reg q => ⟨.config, reg.number, q, 0⟩

end Sys2Proof.Machine
end

