-- ==== Sys2Proof/Machine/Ops.lean ====
section
/-! DEFINITION. The named operations every meaning is built from: replacing a result register,
ending a command with success, ending it with a block error (this block's form of taking an
exception), and reset. The block has no trap entry and no return instruction
(60_exceptions.md R113): the error report of R101 and R102 takes the place of both. -/

namespace Sys2Proof.Machine

/-- The triple MODULATE produces, written and invalidated together (10_state.md R28). -/
structure Envelope where
  samples : List Sample
  sampleRate : Int
  peakScale : Rat
  deriving DecidableEq, Repr

/-- Replace STATUS (10_state.md R29). -/
def State.withStatus (st : Status) (s : State) : State := { s with status := st }

/-- Replace BCD_OUT; `none` invalidates it (10_state.md R22, R30). -/
def State.withBcdOut (b : Option Bits) (s : State) : State := { s with bcdOut := b }

/-- Replace FRAME; `none` invalidates it (10_state.md R23, R30). -/
def State.withFrame (f : Option Frame) (s : State) : State := { s with frame := f }

/-- Replace the three ENV registers together; `none` invalidates all three (10_state.md R28). -/
def State.withEnvelope (e : Option Envelope) (s : State) : State :=
  { s with
    envSamples := e.map (·.samples)
    envSampleRate := e.map (·.sampleRate)
    envPeakScale := e.map (·.peakScale) }

/-- The result registers of the block, as the groups commands write and invalidate (60_exceptions.md R102). -/
inductive ResultGroup where
  | bcdOut
  | frame
  | envelope
  deriving DecidableEq, Repr

/-- Set a result group to `⊥` (60_exceptions.md R102). -/
def State.invalidate (s : State) : ResultGroup → State
  | .bcdOut => s.withBcdOut none
  | .frame => s.withFrame none
  | .envelope => s.withEnvelope none

/-- A command ends without an error: STATUS is NONE (60_exceptions.md R103). -/
def State.succeed (s : State) : State := s.withStatus Status.success

/-- `raise E(info)`: a command ends with a block error. STATUS records the error and the command's
result groups become `⊥`; nothing else changes (60_exceptions.md R102). -/
def State.raise (e : BlockError) (results : List ResultGroup) (s : State) : State :=
  (results.foldl State.invalidate s).withStatus e.status

/-- RESET: every register takes its reset value, whatever it held (70_reset_and_hazards.md R116, R117).
The host's own sequence, what it has read, and the parameter are no registers (log entry 7). -/
def State.resetRegisters (s : State) : State :=
  { State.reset with program := s.program, returned := s.returned, envCapacity := s.envCapacity }

/-- The host receives the value of a read (43_pipeline.md R98). -/
def State.recordRead (r : RegNum) (v : ReadValue) (s : State) : State :=
  { s with returned := s.returned ++ [⟨r, v⟩] }

/-- The number of samples that does not fit the buffer, if the capacity check fails: it applies only
to a positive rate and a bounded buffer (42_envelope_modulator.md R92, 60_exceptions.md R105, R111). -/
def samplesOverCapacity (capacity : Option Nat) (rate : Int) : Option Nat :=
  match capacity with
  | none => none
  | some c => if 0 < rate ∧ (c : Int) < 60 * rate then some (60 * rate).toNat else none

end Sys2Proof.Machine
end

