-- ==== Sys2Proof/Machine/Operands.lean ====
section
/-! DEFINITION. How a command reads its operand registers: in the listed order, each once, at its
start; the first that holds `⊥` is the fault UnwrittenRead (10_state.md R31, 60_exceptions.md R105). -/

namespace Sys2Proof.Machine

/-- The CalendarMoment, the values of CAL_* (10_state.md R13, R14). -/
structure CalendarMoment where
  minute : Int
  hour : Int
  day : Int
  month : Int
  year : Int
  weekday : Int
  dstActive : Bool
  dstChangePending : Bool
  deriving DecidableEq, Repr

/-- The modulator's configuration, the values of CFG_* (00_scope.md R7, 10_state.md R17 to R20). -/
structure EnvelopeConfig where
  sampleRate : Int
  carrierFrequency : Rat
  reducedDuration0 : Rat
  reducedDuration1 : Rat
  lowAmplitude : Rat
  highAmplitude : Rat
  deriving DecidableEq, Repr

/-- The value of a register, or UnwrittenRead when it holds `⊥` (10_state.md R12, 60_exceptions.md R107). -/
def operand {α : Type} (r : Reg) (v : Option α) : Except Fault α :=
  match v with
  | some x => .ok x
  | none => .error (.unwrittenRead r.number)

/-- The operands of ENCODE_BCD: 0x08, then 0x09 (40_bcd_encoder.md R69). -/
def State.bcdOperands (s : State) : Except Fault (Int × Nat) := do
  let v ← operand .bcdValue s.bcdValue
  let w ← operand .bcdWidth s.bcdWidth
  return (v, w)

/-- The calendar operands, 0x00 to 0x07 (41_frame_builder.md R80). -/
def State.calendar (s : State) : Except Fault CalendarMoment := do
  let minute ← operand .calMinute s.calMinute
  let hour ← operand .calHour s.calHour
  let day ← operand .calDay s.calDay
  let month ← operand .calMonth s.calMonth
  let year ← operand .calYear s.calYear
  let weekday ← operand .calWeekday s.calWeekday
  let dstActive ← operand .calDstActive s.calDstActive
  let dstChangePending ← operand .calDstChangePending s.calDstChangePending
  return ⟨minute, hour, day, month, year, weekday, dstActive, dstChangePending⟩

/-- The configuration operands, 0x10 to 0x15 (42_envelope_modulator.md R92). -/
def State.envelopeConfig (s : State) : Except Fault EnvelopeConfig := do
  let sampleRate ← operand .cfgSampleRate s.cfgSampleRate
  let carrierFrequency ← operand .cfgCarrierFrequency s.cfgCarrierFrequency
  let reducedDuration0 ← operand .cfgReducedDuration0 s.cfgReducedDuration0
  let reducedDuration1 ← operand .cfgReducedDuration1 s.cfgReducedDuration1
  let lowAmplitude ← operand .cfgLowAmplitude s.cfgLowAmplitude
  let highAmplitude ← operand .cfgHighAmplitude s.cfgHighAmplitude
  return ⟨sampleRate, carrierFrequency, reducedDuration0, reducedDuration1, lowAmplitude, highAmplitude⟩

/-- The operands of MODULATE: 0x10 to 0x15, then 0x21 (42_envelope_modulator.md R92, 60_exceptions.md R105). -/
def State.modulateOperands (s : State) : Except Fault (EnvelopeConfig × Frame) := do
  let c ← s.envelopeConfig
  let f ← operand .frame s.frame
  return (c, f)

/-- The operands of GENERATE: 0x00 to 0x07, then 0x10 to 0x15 (43_pipeline.md R95). -/
def State.generateOperands (s : State) : Except Fault (CalendarMoment × EnvelopeConfig) := do
  let m ← s.calendar
  let c ← s.envelopeConfig
  return (m, c)

/-- Run a command on its operands; an unwritten operand is the fault and nothing changes
(60_exceptions.md R105, R106). -/
def withOperands {α : Type} (operands : Except Fault α)
    (run : α → Host.Outcome State Fault Refusal) : Host.Outcome State Fault Refusal :=
  match operands with
  | .ok x => run x
  | .error f => .fault f

end Sys2Proof.Machine
end

