-- ==== Sys2Proof/Machine/Bcd.lean ====
section
/-! DEFINITION. The BCD Field Encoder: the function EncodeBCD, its inverse DecodeBCD, and the meaning
of ENCODE_BCD (40_bcd_encoder.md). -/

namespace Sys2Proof.Machine

/-- The number of 4-bit digit groups of a field of width `w` (40_bcd_encoder.md R64). -/
def bcdGroups (w : Nat) : Nat := (w + 3) / 4

/-- The width of digit group `k` of a field of width `w` (30_encoding.md R49, 40_bcd_encoder.md R64). -/
def bcdGroupWidth (w k : Nat) : Nat := min 4 (w - 4 * k)

/-- Decimal digit `k` of `v`, units first (40_bcd_encoder.md R64). -/
def decimalDigit (v k : Nat) : Nat := v / 10 ^ k % 10

/-- Whether EncodeBCD succeeds: `v` is not negative, has no more digits than the field has groups,
and every digit fits its group (40_bcd_encoder.md R65 (a), (b), (c)). -/
def bcdFits (v : Int) (w : Nat) : Bool :=
  decide (0 ≤ v) && decide (v < 10 ^ bcdGroups w) &&
    (List.range (bcdGroups w)).all fun k => decide (decimalDigit v.toNat k < 2 ^ bcdGroupWidth w k)

/-- `EncodeBCD(v, w)`: the field's bits, least significant bit of the units digit first; `none` is
EncodingWidthError(v, w), with no bits (40_bcd_encoder.md R64, R65). -/
def encodeBcd (v : Int) (w : Nat) : Option Bits :=
  if bcdFits v w then
    some ((List.range w).map fun i => (decimalDigit v.toNat (i / 4)).testBit (i % 4))
  else none

/-- The value of a bit: 0 or 1 (00_scope.md section 5). -/
def bitValue (b : Bool) : Nat := if b then 1 else 0

/-- The value that group `k` of a field holds (40_bcd_encoder.md R66). -/
def bcdGroupValue (b : Bits) (k : Nat) : Nat :=
  ((List.range (bcdGroupWidth b.length k)).map fun j => bitValue (b.getD (4 * k + j) false) * 2 ^ j).sum

/-- `DecodeBCD` (40_bcd_encoder.md R66). -/
def decodeBcd (b : Bits) : Nat :=
  ((List.range (bcdGroups b.length)).map fun k => 10 ^ k * bcdGroupValue b k).sum

/-- ENCODE_BCD: encode BCD_VALUE at width BCD_WIDTH into BCD_OUT (40_bcd_encoder.md R69). -/
def execEncodeBcd (s : State) : Host.Outcome State Fault Refusal :=
  withOperands s.bcdOperands fun (v, w) =>
    match encodeBcd v w with
    | some b => .next (s.withBcdOut (some b)).succeed
    | none => .next (s.raise (.encodingWidth .bcdValue v w) [.bcdOut])

end Sys2Proof.Machine
end

