-- ==== Sys2Proof/Machine/FrameBuilder.lean ====
section
/-! DEFINITION. The Frame Builder: the range check, even parity, the slot map, the function Frame, and
the meaning of BUILD_FRAME (41_frame_builder.md; 30_encoding.md R52 to R61). -/

namespace Sys2Proof.Machine

/-- One numeric calendar field with its register, value and inclusive range (41_frame_builder.md R72). -/
structure FieldCheck where
  reg : Reg
  value : Int
  low : Int
  high : Int
  deriving DecidableEq, Repr

/-- The fields and their ranges, in the order they are checked (41_frame_builder.md R71 step 1, R72, R73). -/
def fieldChecks (m : CalendarMoment) : List FieldCheck :=
  [ ⟨.calMinute, m.minute, 0, 59⟩,
    ⟨.calHour, m.hour, 0, 23⟩,
    ⟨.calDay, m.day, 1, 31⟩,
    ⟨.calMonth, m.month, 1, 12⟩,
    ⟨.calYear, m.year, 0, 99⟩,
    ⟨.calWeekday, m.weekday, 1, 7⟩ ]

/-- Whether a field lies outside its range (41_frame_builder.md R71 step 1). -/
def FieldCheck.fails (c : FieldCheck) : Bool := decide (c.value < c.low ∨ c.high < c.value)

/-- The first field outside its range (41_frame_builder.md R73). -/
def firstBadField (m : CalendarMoment) : Option FieldCheck := (fieldChecks m).find? FieldCheck.fails

/-- The number of 1 elements of a bit sequence (00_scope.md section 5). -/
def popcount (b : Bits) : Nat := b.count true

/-- `EvenParity(b) = popcount(b) mod 2`, as a bit (41_frame_builder.md R74). -/
def evenParity (b : Bits) : Bool := popcount b % 2 == 1

/-- `bit(true) = Bit1`, `bit(false) = Bit0` (41_frame_builder.md R71). -/
def slotOfBit (b : Bool) : SlotValue := if b then .bit1 else .bit0

/-- The slot for element `i` of a bit sequence. -/
def slotOfElement (b : Bits) (i : Nat) : SlotValue := slotOfBit (b.getD i false)

/-- The encoded fields of a frame: minute, hour, and the date bits of day, weekday, month and year
as one sequence (41_frame_builder.md R71 step 2). -/
structure EncodedFields where
  minute : Bits
  hour : Bits
  date : Bits
  deriving DecidableEq, Repr

/-- Encode one calendar field; a field that does not fit reports its calendar register and its width
(41_frame_builder.md R75, R80). -/
def encodeField (reg : Reg) (v : Int) (w : Nat) : Except BlockError Bits :=
  match encodeBcd v w with
  | some b => .ok b
  | none => .error (.encodingWidth reg v w)

/-- Encode the six fields at their fixed widths (41_frame_builder.md R71 step 2, 30_encoding.md R50). -/
def encodeFields (m : CalendarMoment) : Except BlockError EncodedFields := do
  let minute ← encodeField .calMinute m.minute 7
  let hour ← encodeField .calHour m.hour 6
  let day ← encodeField .calDay m.day 6
  let weekday ← encodeField .calWeekday m.weekday 3
  let month ← encodeField .calMonth m.month 5
  let year ← encodeField .calYear m.year 8
  return ⟨minute, hour, day ++ weekday ++ month ++ year⟩

/-- The value of slot `i`: the slot map of 30_encoding.md R52, with the rules R53 to R61 in order. -/
def slotMap (m : CalendarMoment) (e : EncodedFields) (i : Nat) : SlotValue :=
  if i = 0 then .noPulse
  else if i ≤ 15 then .bit0
  else if i = 16 then slotOfBit m.dstChangePending
  else if i = 17 then slotOfBit m.dstActive
  else if i = 18 then slotOfBit (!m.dstActive)
  else if i = 19 then .bit0
  else if i = 20 then .bit1
  else if i ≤ 27 then slotOfElement e.minute (i - 21)
  else if i = 28 then slotOfBit (evenParity e.minute)
  else if i ≤ 34 then slotOfElement e.hour (i - 29)
  else if i = 35 then slotOfBit (evenParity e.hour)
  else if i ≤ 57 then slotOfElement e.date (i - 36)
  else if i = 58 then slotOfBit (evenParity e.date)
  else .noPulse

/-- The frame whose slot `i` is `f i`. -/
def frameOfSlots (f : Nat → SlotValue) : Frame :=
  ⟨(List.range Config.slotsPerMinute).map f, by simp⟩

/-- `Frame(m)`: the range check, then the fields, then the 60 slots (41_frame_builder.md R71). -/
def buildFrame (m : CalendarMoment) : Except BlockError Frame :=
  match firstBadField m with
  | some c => .error (.fieldRange c.reg c.value)
  | none =>
    match encodeFields m with
    | .error e => .error e
    | .ok e => .ok (frameOfSlots (slotMap m e))

/-- BUILD_FRAME: build the frame of CAL_* into FRAME (41_frame_builder.md R80). -/
def execBuildFrame (s : State) : Host.Outcome State Fault Refusal :=
  withOperands s.calendar fun m =>
    match buildFrame m with
    | .ok f => .next (s.withFrame (some f)).succeed
    | .error e => .next (s.raise e [.frame])

end Sys2Proof.Machine
end

