-- ==== Sys2Proof/Machine/Modulator.lean ====
section
/-! DEFINITION. The Envelope Modulator: the low-segment count, the envelope value and the carrier phase
of a sample, the function Envelope, and the meaning of MODULATE (42_envelope_modulator.md). -/

namespace Sys2Proof.Machine

/-- `L_b = min(r, max(0, floor(d_b · r)))`, exact on rationals (42_envelope_modulator.md R84). -/
def lowCount (d : Rat) (r : Int) : Int := min r (max 0 (d * r).floor)

/-- Slot `s` of a frame. Every use has `s < 60`, so the default is never read. -/
def Frame.slotAt (f : Frame) (s : Nat) : SlotValue := f.slots.getD s .noPulse

/-- The envelope value at offset `k` of a second whose slot is `v` (42_envelope_modulator.md R85). -/
def envelopeValue (c : EnvelopeConfig) (v : SlotValue) (k : Nat) : Rat :=
  match v with
  | .noPulse => c.highAmplitude
  | .bit0 => if (k : Int) < lowCount c.reducedDuration0 c.sampleRate then c.lowAmplitude else c.highAmplitude
  | .bit1 => if (k : Int) < lowCount c.reducedDuration1 c.sampleRate then c.lowAmplitude else c.highAmplitude

/-- `frac(q) = q − floor(q)` (00_scope.md section 5). -/
def frac (q : Rat) : Rat := q - q.floor

/-- `phase(n) = frac(fc · n / r)`, in turns (42_envelope_modulator.md R86). -/
def carrierPhase (c : EnvelopeConfig) (n : Nat) : Rat := frac (c.carrierFrequency * n / c.sampleRate)

/-- Sample `n` as its exact pair: second `n div r`, offset `n mod r` (42_envelope_modulator.md R82,
30_encoding.md R62, 10_state.md R25). -/
def sampleAt (f : Frame) (c : EnvelopeConfig) (n : Nat) : Sample :=
  let r := c.sampleRate.toNat
  ⟨envelopeValue c (Frame.slotAt f (n / r)) (n % r), carrierPhase c n⟩

/-- `sample(n) = env(n) · sinTurns(phase(n))`, the real number a sample denotes for the parameter
`sinTurns` (42_envelope_modulator.md R87, 10_state.md R25). -/
def Sample.value (sinTurns : Config.SinTurns) (x : Sample) : Real := x.env * sinTurns x.phase

/-- The peak-amplitude scale `max(|lo|, |hi|)` (42_envelope_modulator.md R88). -/
def peakScale (c : EnvelopeConfig) : Rat := max |c.lowAmplitude| |c.highAmplitude|

/-- The configuration check: the sample rate first, then the carrier (42_envelope_modulator.md R83). -/
def configError (c : EnvelopeConfig) : Option BlockError :=
  if c.sampleRate ≤ 0 then some (.config .cfgSampleRate c.sampleRate)
  else if c.carrierFrequency ≤ 0 then some (.config .cfgCarrierFrequency c.carrierFrequency)
  else none

/-- `Envelope(f, r, fc, d0, d1, lo, hi)`: the check, then `60 · r` samples in order, the rate and the
peak scale (42_envelope_modulator.md R82, R89). -/
def modulateFrame (f : Frame) (c : EnvelopeConfig) : Except BlockError Envelope :=
  match configError c with
  | some e => .error e
  | none => .ok ⟨(List.range (60 * c.sampleRate.toNat)).map (sampleAt f c), c.sampleRate, peakScale c⟩

/-- The modulation stage of a command: write the envelope, or raise the ConfigError
(42_envelope_modulator.md R92, 43_pipeline.md R95). -/
def State.modulationStage (f : Frame) (c : EnvelopeConfig) (s : State) : State :=
  match modulateFrame f c with
  | .ok e => (s.withEnvelope (some e)).succeed
  | .error e => s.raise e [.envelope]

/-- MODULATE: modulate FRAME with CFG_* into ENV_* (42_envelope_modulator.md R92). -/
def execModulate (s : State) : Host.Outcome State Fault Refusal :=
  withOperands s.modulateOperands fun (c, f) =>
    match samplesOverCapacity s.envCapacity c.sampleRate with
    | some n => .fault (.capacityExceeded n)
    | none => .next (s.modulationStage f c)

end Sys2Proof.Machine
end

