-- ==== Sys2Proof/Machine/Pipeline.lean ====
section
/-! DEFINITION. The pipeline command GENERATE (43_pipeline.md R95). -/

namespace Sys2Proof.Machine

/-- GENERATE: the frame stage, then the modulation stage. A failed frame stage invalidates FRAME and
ENV_*; a failed modulation stage keeps the new FRAME and invalidates ENV_* (43_pipeline.md R95). -/
def execGenerate (s : State) : Host.Outcome State Fault Refusal :=
  withOperands s.generateOperands fun (m, c) =>
    match samplesOverCapacity s.envCapacity c.sampleRate with
    | some n => .fault (.capacityExceeded n)
    | none =>
      match buildFrame m with
      | .error e => .next (s.raise e [.frame, .envelope])
      | .ok f => .next ((s.withFrame (some f)).modulationStage f c)

end Sys2Proof.Machine
end

