-- ==== Sys2Proof/Machine/Dispatch.lean ====
section
/-! DEFINITION. Dispatch: one arm per command of the opcode table (30_encoding.md R44). -/

namespace Sys2Proof.Machine

def exec (i : Instr) (s : State) : Host.Outcome State Fault Refusal :=
  match i with
  | .encodeBcd => Sys2Proof.Machine.execEncodeBcd s
  | .buildFrame => Sys2Proof.Machine.execBuildFrame s
  | .modulate => Sys2Proof.Machine.execModulate s
  | .generate => Sys2Proof.Machine.execGenerate s

end Sys2Proof.Machine
end

