-- ==== Sys2Proof/WellFormed.lean ====
section
/-! DEFINITION. Which terms the spec admits. A command has no operands, so every command is
well-formed (30_encoding.md R46). A host write is well-formed when its value lies in the domain of
the writable register it names (10_state.md R11). -/

namespace Sys2Proof

/-- A command carries no operands, so there is nothing to check (30_encoding.md R46). -/
def Instr.wellFormed : Instr → Bool
  | .encodeBcd => true
  | .buildFrame => true
  | .modulate => true
  | .generate => true

/-- The domains of the registers the host may write (10_state.md R11). -/
inductive Domain where
  | integer
  | natural
  | rational
  | boolean
  | frame
  | commandWord
  deriving DecidableEq, Repr

/-- The domain of a register the host may write; `none` for the read-only ones (10_state.md R11). -/
def Reg.writeDomain : Reg → Option Domain
  | .calMinute | .calHour | .calDay | .calMonth | .calYear | .calWeekday => some .integer
  | .calDstActive | .calDstChangePending => some .boolean
  | .bcdValue => some .integer
  | .bcdWidth => some .natural
  | .cfgSampleRate => some .integer
  | .cfgCarrierFrequency | .cfgReducedDuration0 | .cfgReducedDuration1
  | .cfgLowAmplitude | .cfgHighAmplitude => some .rational
  | .frame => some .frame
  | .bcdOut | .envSamples | .envSampleRate | .envPeakScale | .status => none
  | .cmd => some .commandWord

/-- Whether a literal denotes a value of the domain. An integer is a rational, and a rational with
denominator 1 is an integer. -/
def HostValue.fits : Domain → HostValue → Bool
  | .integer, .int _ => true
  | .integer, .rat q => q.den == 1
  | .natural, .int v => decide (0 ≤ v)
  | .natural, .rat q => q.den == 1 && decide (0 ≤ q.num)
  | .rational, .int _ => true
  | .rational, .rat _ => true
  | .boolean, .bool _ => true
  | .frame, .frame _ => true
  | .commandWord, .int v => decide (0 ≤ v ∧ v < 256)
  | .commandWord, .rat q => q.den == 1 && decide (0 ≤ q.num ∧ q.num < 256)
  | _, _ => false

/-- A host action is well-formed unless it writes a value outside the domain of a writable register.
A write to a read-only or unassigned register has its own fault whatever the value
(43_pipeline.md R97), and so has a frame image with the reserved code (43_pipeline.md R96). -/
def HostAction.wellFormed : HostAction → Bool
  | .write n v =>
    match (Reg.ofNumber? n).bind Reg.writeDomain with
    | some d => v.fits d
    | none => true
  | .read _ => true
  | .reset => true

end Sys2Proof
end

