-- ==== Sys2Proof/Machine/HostAccess.lean ====
section
/-! DEFINITION. The host's accesses to the registers: writes, writes of FRAME and of CMD, reads, and
RESET (43_pipeline.md R96 to R98, 10_state.md R21, 70_reset_and_hazards.md R116). -/

namespace Sys2Proof.Machine

/-- The integer a literal denotes, if it denotes one (30_encoding.md R47). -/
def HostValue.asInt? : HostValue → Option Int
  | .int v => some v
  | .rat q => if q.den = 1 then some q.num else none
  | .bool _ => none
  | .frame _ => none

/-- The natural number a literal denotes, if it denotes one. -/
def HostValue.asNat? (x : HostValue) : Option Nat :=
  match HostValue.asInt? x with
  | some v => if 0 ≤ v then some v.toNat else none
  | none => none

/-- The rational a literal denotes, if it denotes one. -/
def HostValue.asRat? : HostValue → Option Rat
  | .int v => some v
  | .rat q => some q
  | .bool _ => none
  | .frame _ => none

/-- The Boolean a literal denotes, if it denotes one. -/
def HostValue.asBool? : HostValue → Option Bool
  | .bool b => some b
  | .int _ => none
  | .rat _ => none
  | .frame _ => none

/-- The frame image a literal denotes, if it denotes one. -/
def HostValue.asImage? : HostValue → Option FrameImage
  | .frame image => some image
  | .int _ => none
  | .rat _ => none
  | .bool _ => none

/-- The command word a literal denotes: an 8-bit number (30_encoding.md R43). -/
def HostValue.asCmdWord? (x : HostValue) : Option CmdWord :=
  match HostValue.asNat? x with
  | some c => if c < 256 then some (BitVec.ofNat 8 c) else none
  | none => none

/-- Store a value of the register's domain as given (43_pipeline.md R97); a literal outside the domain
is refused by name (log entry 6). -/
def store {α : Type} (r : Reg) (v : Option α) (put : α → State) : Host.Outcome State Fault Refusal :=
  match v with
  | some x => .next (put x)
  | none => .refused (.valueOutsideDomain r.number)

/-- A host write of FRAME stores the 60 slots as given; the reserved slot code is the fault
(43_pipeline.md R96, 60_exceptions.md R110). -/
def writeFrameImage (image : FrameImage) (s : State) : Host.Outcome State Fault Refusal :=
  match decodeFrame image with
  | .ok f => .next (s.withFrame (some f))
  | .error slot => .fault (.reservedSlotCode slot)

/-- A host write of a command word to CMD runs the command to completion in this step; a reserved
word is the fault (10_state.md R21, 20_memory.md R39, 30_encoding.md R45). -/
def writeCommand (c : CmdWord) (s : State) : Host.Outcome State Fault Refusal :=
  match decodeWord c with
  | .ok i => exec i s
  | .error _ => .fault (.reservedCommand c)

/-- A host write of an assigned register: input registers, FRAME and CMD take it, the read-only
registers refuse it (10_state.md R11, 43_pipeline.md R96, R97). -/
def writeRegister (r : Reg) (x : HostValue) (s : State) : Host.Outcome State Fault Refusal :=
  match r with
  | .calMinute => store r (HostValue.asInt? x) fun v => { s with calMinute := some v }
  | .calHour => store r (HostValue.asInt? x) fun v => { s with calHour := some v }
  | .calDay => store r (HostValue.asInt? x) fun v => { s with calDay := some v }
  | .calMonth => store r (HostValue.asInt? x) fun v => { s with calMonth := some v }
  | .calYear => store r (HostValue.asInt? x) fun v => { s with calYear := some v }
  | .calWeekday => store r (HostValue.asInt? x) fun v => { s with calWeekday := some v }
  | .calDstActive => store r (HostValue.asBool? x) fun b => { s with calDstActive := some b }
  | .calDstChangePending => store r (HostValue.asBool? x) fun b => { s with calDstChangePending := some b }
  | .bcdValue => store r (HostValue.asInt? x) fun v => { s with bcdValue := some v }
  | .bcdWidth => store r (HostValue.asNat? x) fun w => { s with bcdWidth := some w }
  | .cfgSampleRate => store r (HostValue.asInt? x) fun v => { s with cfgSampleRate := some v }
  | .cfgCarrierFrequency => store r (HostValue.asRat? x) fun q => { s with cfgCarrierFrequency := some q }
  | .cfgReducedDuration0 => store r (HostValue.asRat? x) fun q => { s with cfgReducedDuration0 := some q }
  | .cfgReducedDuration1 => store r (HostValue.asRat? x) fun q => { s with cfgReducedDuration1 := some q }
  | .cfgLowAmplitude => store r (HostValue.asRat? x) fun q => { s with cfgLowAmplitude := some q }
  | .cfgHighAmplitude => store r (HostValue.asRat? x) fun q => { s with cfgHighAmplitude := some q }
  | .frame =>
    match HostValue.asImage? x with
    | some image => writeFrameImage image s
    | none => .refused (.valueOutsideDomain r.number)
  | .cmd =>
    match HostValue.asCmdWord? x with
    | some c => writeCommand c s
    | none => .refused (.valueOutsideDomain r.number)
  | .bcdOut => .fault (.accessRefused r.number .write)
  | .envSamples => .fault (.accessRefused r.number .write)
  | .envSampleRate => .fault (.accessRefused r.number .write)
  | .envPeakScale => .fault (.accessRefused r.number .write)
  | .status => .fault (.accessRefused r.number .write)

/-- A host write: an unassigned number is AccessRefused (43_pipeline.md R97, 60_exceptions.md R108). -/
def hostWrite (n : RegNum) (x : HostValue) (s : State) : Host.Outcome State Fault Refusal :=
  match Reg.ofNumber? n with
  | some r => writeRegister r x s
  | none => .fault (.accessRefused n .write)

/-- The whole value of a register; `⊥` is UnwrittenRead and CMD is not readable
(43_pipeline.md R98, 10_state.md R21). -/
def readRegister (r : Reg) (s : State) : Except Fault ReadValue :=
  match r with
  | .calMinute => (operand r s.calMinute).map .int
  | .calHour => (operand r s.calHour).map .int
  | .calDay => (operand r s.calDay).map .int
  | .calMonth => (operand r s.calMonth).map .int
  | .calYear => (operand r s.calYear).map .int
  | .calWeekday => (operand r s.calWeekday).map .int
  | .calDstActive => (operand r s.calDstActive).map .bool
  | .calDstChangePending => (operand r s.calDstChangePending).map .bool
  | .bcdValue => (operand r s.bcdValue).map .int
  | .bcdWidth => (operand r s.bcdWidth).map .nat
  | .cfgSampleRate => (operand r s.cfgSampleRate).map .int
  | .cfgCarrierFrequency => (operand r s.cfgCarrierFrequency).map .rat
  | .cfgReducedDuration0 => (operand r s.cfgReducedDuration0).map .rat
  | .cfgReducedDuration1 => (operand r s.cfgReducedDuration1).map .rat
  | .cfgLowAmplitude => (operand r s.cfgLowAmplitude).map .rat
  | .cfgHighAmplitude => (operand r s.cfgHighAmplitude).map .rat
  | .bcdOut => (operand r s.bcdOut).map .bits
  | .frame => (operand r s.frame).map .frame
  | .envSamples => (operand r s.envSamples).map .samples
  | .envSampleRate => (operand r s.envSampleRate).map .int
  | .envPeakScale => (operand r s.envPeakScale).map .rat
  | .status => .ok (.status s.status)
  | .cmd => .error (.accessRefused r.number .read)

/-- A host read returns the register's value to the host and changes no register
(43_pipeline.md R98, 20_memory.md R39). -/
def hostRead (n : RegNum) (s : State) : Host.Outcome State Fault Refusal :=
  match Reg.ofNumber? n with
  | some r => withOperands (readRegister r s) fun v => .next (s.recordRead n v)
  | none => .fault (.accessRefused n .read)

/-- One action of the host, in one atomic step (20_memory.md R39, 30_encoding.md R47). -/
def perform (a : HostAction) (s : State) : Host.Outcome State Fault Refusal :=
  match a with
  | .write n x => hostWrite n x s
  | .read n => hostRead n s
  | .reset => .next s.resetRegisters

end Sys2Proof.Machine
end

