-- ==== Sys2Proof/Machine/Step.lean ====
section
/-! DEFINITION. One step of the machine: the host's next action takes effect (20_memory.md R40).
A host with nothing left to do leaves the block as it is (70_reset_and_hazards.md R127; log entry 2). -/

namespace Sys2Proof.Machine

/-- One step: the first pending action of the host leaves the queue and is performed. -/
def step (s : State) : Host.Outcome State Fault Refusal :=
  match s.program with
  | [] => .next s
  | a :: rest => perform a { s with program := rest }

/-- The state whose next host action is the write of the command word `w` to CMD, 0x3F
(95_test_vectors.md section 7; log entry 1). Nothing else changes. -/
def State.withFetchWord (s : State) (nbits w : Nat) : State :=
  { s with program := .write 0x3F (.int (w % 2 ^ nbits : Nat)) :: s.program }

end Sys2Proof.Machine
end

