-- ==== Sys2Proof/Machine/HostProgram.lean ====
section
/-! DEFINITION. Host programs: the pseudo-instructions of 30_encoding.md R48 as lists of host actions,
and the reader of the host-program syntax of R47. None of this is state of the block. -/

namespace Sys2Proof.Machine

/-! ### Pseudo-instructions (30_encoding.md R48) -/

/-- `CMD <mnemonic>`, also written as the mnemonic alone: one write of the command word to CMD. -/
def cmdAction (i : Instr) : HostAction := .write 0x3F (.int (encode i).toNat)

/-- The registers `SETCAL` writes, in order. -/
def setCalRegs : List Reg :=
  [.calMinute, .calHour, .calDay, .calMonth, .calYear, .calWeekday, .calDstActive, .calDstChangePending]

/-- The registers `SETCFG` writes, in order. -/
def setCfgRegs : List Reg :=
  [.cfgSampleRate, .cfgCarrierFrequency, .cfgReducedDuration0, .cfgReducedDuration1,
   .cfgLowAmplitude, .cfgHighAmplitude]

/-- The registers `SETBCD` writes, in order. -/
def setBcdRegs : List Reg := [.bcdValue, .bcdWidth]

/-- `SETCAL mi, h, d, mo, y, wd, dst, pend`. -/
def setCal (m : CalendarMoment) : List HostAction :=
  [ .write 0x00 (.int m.minute), .write 0x01 (.int m.hour), .write 0x02 (.int m.day),
    .write 0x03 (.int m.month), .write 0x04 (.int m.year), .write 0x05 (.int m.weekday),
    .write 0x06 (.bool m.dstActive), .write 0x07 (.bool m.dstChangePending) ]

/-- `SETCFG rate, f, d0, d1, lo, hi`. -/
def setCfg (c : EnvelopeConfig) : List HostAction :=
  [ .write 0x10 (.int c.sampleRate), .write 0x11 (.rat c.carrierFrequency),
    .write 0x12 (.rat c.reducedDuration0), .write 0x13 (.rat c.reducedDuration1),
    .write 0x14 (.rat c.lowAmplitude), .write 0x15 (.rat c.highAmplitude) ]

/-- `SETBCD v, w`. -/
def setBcd (v : Int) (w : Nat) : List HostAction := [.write 0x08 (.int v), .write 0x09 (.int w)]

/-- The host starts a program: its actions are pending, and nothing else changes. -/
def State.withProgram (s : State) (p : List HostAction) : State := { s with program := p }

/-! ### The host-program syntax (30_encoding.md R47) -/

/-- The name of a register (10_state.md R11). -/
def Reg.name : Reg → String
  | .calMinute => "CAL_MINUTE"
  | .calHour => "CAL_HOUR"
  | .calDay => "CAL_DAY"
  | .calMonth => "CAL_MONTH"
  | .calYear => "CAL_YEAR"
  | .calWeekday => "CAL_WEEKDAY"
  | .calDstActive => "CAL_DST_ACTIVE"
  | .calDstChangePending => "CAL_DST_CHANGE_PENDING"
  | .bcdValue => "BCD_VALUE"
  | .bcdWidth => "BCD_WIDTH"
  | .cfgSampleRate => "CFG_SAMPLE_RATE"
  | .cfgCarrierFrequency => "CFG_CARRIER_FREQUENCY"
  | .cfgReducedDuration0 => "CFG_REDUCED_DURATION_0"
  | .cfgReducedDuration1 => "CFG_REDUCED_DURATION_1"
  | .cfgLowAmplitude => "CFG_LOW_AMPLITUDE"
  | .cfgHighAmplitude => "CFG_HIGH_AMPLITUDE"
  | .bcdOut => "BCD_OUT"
  | .frame => "FRAME"
  | .envSamples => "ENV_SAMPLES"
  | .envSampleRate => "ENV_SAMPLE_RATE"
  | .envPeakScale => "ENV_PEAK_SCALE"
  | .status => "STATUS"
  | .cmd => "CMD"

/-- The mnemonic of a command (30_encoding.md R44). -/
def Instr.mnemonic : Instr → String
  | .encodeBcd => "ENCODE_BCD"
  | .buildFrame => "BUILD_FRAME"
  | .modulate => "MODULATE"
  | .generate => "GENERATE"

/-- The command with a given mnemonic. -/
def instrOfMnemonic? (t : List Char) : Option Instr :=
  [Instr.encodeBcd, .buildFrame, .modulate, .generate].find? fun i => (Instr.mnemonic i).toList == t

/-- Add a finished token, read right to left, in front of the tokens that follow it. -/
def pushToken (revToken : List Char) (rest : List (List Char)) : List (List Char) :=
  if revToken.isEmpty then rest else revToken.reverse :: rest

/-- The tokens of a line, apart at blanks and commas; `;` starts a comment. -/
def lineTokens : List Char → List Char → List (List Char)
  | [], cur => pushToken cur []
  | c :: cs, cur =>
    if c = ';' then pushToken cur []
    else if c = ' ' ∨ c = ',' ∨ c = '\t' ∨ c = '\r' then pushToken cur (lineTokens cs [])
    else lineTokens cs (c :: cur)

/-- The value of a digit in a base, if it is one. -/
def digitValue? (base : Nat) (c : Char) : Option Nat :=
  let d := if '0' ≤ c ∧ c ≤ '9' then c.toNat - 48
    else if 'a' ≤ c ∧ c ≤ 'f' then c.toNat - 87
    else if 'A' ≤ c ∧ c ≤ 'F' then c.toNat - 55
    else base
  if d < base then some d else none

/-- A non-empty digit string in a base. -/
def digits? (base : Nat) : List Char → Option Nat
  | [] => none
  | c :: cs => (c :: cs).foldl (fun acc ch => acc.bind fun n => (digitValue? base ch).map (base * n + ·)) (some 0)

/-- An unsigned integer literal, decimal or `0x..`. -/
def natLiteral? : List Char → Option Nat
  | '0' :: 'x' :: ds => digits? 16 ds
  | ds => digits? 10 ds

/-- An integer literal. -/
def intLiteral? : List Char → Option Int
  | '-' :: ds => (natLiteral? ds).map fun n => -(n : Int)
  | ds => (natLiteral? ds).map Int.ofNat

/-- A rational literal `p/q` with `q > 0`. -/
def ratLiteral? (t : List Char) : Option Rat :=
  match intLiteral? (t.takeWhile (· != '/')), natLiteral? ((t.dropWhile (· != '/')).drop 1) with
  | some p, some q => if q = 0 then none else some (mkRat p q)
  | _, _ => none

/-- The slot value of a character of a frame literal. -/
def slotOfChar? : Char → Option SlotValue
  | '0' => some .bit0
  | '1' => some .bit1
  | 'N' => some .noPulse
  | _ => none

/-- The slots of a frame literal. -/
def slotLiteral? : List Char → Option (List SlotValue)
  | [] => some []
  | c :: cs =>
    match slotOfChar? c, slotLiteral? cs with
    | some v, some vs => some (v :: vs)
    | _, _ => none

/-- A frame literal: 60 characters over `0`, `1` and `N`, slot 0 first. -/
def frameLiteral? (t : List Char) : Option Frame :=
  match slotLiteral? t with
  | some slots => if h : slots.length = Config.slotsPerMinute then some ⟨slots, h⟩ else none
  | none => none

/-- A value written to FRAME: a frame literal, or its bit image as `0x..` (log entry 9). -/
def frameValue? (t : List Char) : Option HostValue :=
  match frameLiteral? t with
  | some f => some (.frame (encodeFrame f))
  | none =>
    match natLiteral? t with
    | some n => if n < 2 ^ 120 then some (.frame (BitVec.ofNat 120 n)) else none
    | none => none

/-- A value literal of 30_encoding.md R47 that is no frame value: a Boolean, an integer or a rational. -/
def scalarLiteral? (t : List Char) : Option HostValue :=
  if t = "true".toList then some (.bool true)
  else if t = "false".toList then some (.bool false)
  else
    match intLiteral? t with
    | some v => some (.int v)
    | none => (ratLiteral? t).map .rat

/-- A value literal written to the register with number `n`. R47 ties no literal to a register, so every
literal is read for every register, and the write decides what becomes of it. Which form a text that has
two of them is read in is the model's choice (DESIGN CHOICE, log entry 9): a frame value first for FRAME,
and last for any other register, where 60 characters over `0` and `1` are an integer. -/
def valueLiteral? (n : RegNum) (t : List Char) : Option HostValue :=
  if n = Reg.number .frame then (frameValue? t).or (scalarLiteral? t)
  else (scalarLiteral? t).or ((frameLiteral? t).map fun f => .frame (encodeFrame f))

/-- A register, by name or by number. -/
def regLiteral? (t : List Char) : Option RegNum :=
  match Reg.all.find? fun r => (Reg.name r).toList == t with
  | some r => some r.number
  | none =>
    match natLiteral? t with
    | some n => if n < 256 then some (BitVec.ofNat 8 n) else none
    | none => none

/-- The writes of a pseudo-instruction: one register and one literal each, in order. -/
def writeEach? : List Reg → List (List Char) → Option (List HostAction)
  | [], [] => some []
  | r :: rs, t :: ts =>
    match valueLiteral? r.number t, writeEach? rs ts with
    | some v, some rest => some (.write r.number v :: rest)
    | _, _ => none
  | _, _ => none

/-- The command of a token list that names one, alone or after `CMD`. -/
def commandLine? (ts : List (List Char)) : Option (List HostAction) :=
  match ts with
  | [m] => (instrOfMnemonic? m).map fun i => [cmdAction i]
  | [k, m] => if k = "CMD".toList then (instrOfMnemonic? m).map fun i => [cmdAction i] else none
  | _ => none

/-- The write or read of a token list that is one. -/
def accessLine? (ts : List (List Char)) : Option (List HostAction) :=
  match ts with
  | [k, r, v] =>
    if k = "WR".toList then (regLiteral? r).bind fun n => (valueLiteral? n v).map fun x => [.write n x] else none
  | [k, r] => if k = "RD".toList then (regLiteral? r).map fun n => [.read n] else none
  | _ => none

/-- The expansion of a token list that is a pseudo-instruction with operands, or RESET. -/
def macroLine? (ts : List (List Char)) : Option (List HostAction) :=
  match ts with
  | [] => none
  | k :: rest =>
    if k = "SETCAL".toList then writeEach? setCalRegs rest
    else if k = "SETCFG".toList then writeEach? setCfgRegs rest
    else if k = "SETBCD".toList then writeEach? setBcdRegs rest
    else if k = "RESET".toList ∧ rest = [] then some [.reset]
    else none

/-- The host actions of one line; a blank or comment line has none. -/
def lineActions? (line : List Char) : Option (List HostAction) :=
  match lineTokens line [] with
  | [] => some []
  | t :: ts => (macroLine? (t :: ts)).or ((accessLine? (t :: ts)).or (commandLine? (t :: ts)))

/-- The lines of a text. -/
def textLines : List Char → List Char → List (List Char)
  | [], cur => [cur.reverse]
  | c :: cs, cur => if c = '\n' then cur.reverse :: textLines cs [] else textLines cs (c :: cur)

/-- The actions of a list of lines, in order. -/
def linesActions? : List (List Char) → Option (List HostAction)
  | [] => some []
  | l :: ls =>
    match lineActions? l, linesActions? ls with
    | some as, some rest => some (as ++ rest)
    | _, _ => none

/-- A host program, one action or pseudo-instruction a line (30_encoding.md R47, R48). -/
def hostProgram? (text : String) : Option (List HostAction) := linesActions? (textLines text.toList [])

end Sys2Proof.Machine
end

