-- ==== Sys2Proof/Safety.lean ====
section
/-! DEFINITION. The terms claims use: what it means for a state to hold operands, the spec's own
formulas for a BCD field, a frame and a sample, the frame invariant, and the invariant every step
keeps. None of these definitions is used by the machine. -/

namespace Sys2Proof.Machine

/-! ### Operands -/

/-- Registers 0x00 to 0x07 hold the moment `m` (10_state.md R13, R14). -/
abbrev State.HoldsCalendar (s : State) (m : CalendarMoment) : Prop :=
  s.calMinute = some m.minute ∧ s.calHour = some m.hour ∧ s.calDay = some m.day ∧
  s.calMonth = some m.month ∧ s.calYear = some m.year ∧ s.calWeekday = some m.weekday ∧
  s.calDstActive = some m.dstActive ∧ s.calDstChangePending = some m.dstChangePending

/-- Registers 0x10 to 0x15 hold the configuration `c` (10_state.md R17 to R20). -/
abbrev State.HoldsConfig (s : State) (c : EnvelopeConfig) : Prop :=
  s.cfgSampleRate = some c.sampleRate ∧ s.cfgCarrierFrequency = some c.carrierFrequency ∧
  s.cfgReducedDuration0 = some c.reducedDuration0 ∧ s.cfgReducedDuration1 = some c.reducedDuration1 ∧
  s.cfgLowAmplitude = some c.lowAmplitude ∧ s.cfgHighAmplitude = some c.highAmplitude

/-- Whether a register holds a value; STATUS always does, and CMD keeps none (10_state.md R12, R21, R29). -/
def State.holdsValue (s : State) : Reg → Bool
  | .calMinute => s.calMinute.isSome
  | .calHour => s.calHour.isSome
  | .calDay => s.calDay.isSome
  | .calMonth => s.calMonth.isSome
  | .calYear => s.calYear.isSome
  | .calWeekday => s.calWeekday.isSome
  | .calDstActive => s.calDstActive.isSome
  | .calDstChangePending => s.calDstChangePending.isSome
  | .bcdValue => s.bcdValue.isSome
  | .bcdWidth => s.bcdWidth.isSome
  | .cfgSampleRate => s.cfgSampleRate.isSome
  | .cfgCarrierFrequency => s.cfgCarrierFrequency.isSome
  | .cfgReducedDuration0 => s.cfgReducedDuration0.isSome
  | .cfgReducedDuration1 => s.cfgReducedDuration1.isSome
  | .cfgLowAmplitude => s.cfgLowAmplitude.isSome
  | .cfgHighAmplitude => s.cfgHighAmplitude.isSome
  | .bcdOut => s.bcdOut.isSome
  | .frame => s.frame.isSome
  | .envSamples => s.envSamples.isSome
  | .envSampleRate => s.envSampleRate.isSome
  | .envPeakScale => s.envPeakScale.isSome
  | .status => true
  | .cmd => false

/-- The operand registers of each command, in the order they are checked (60_exceptions.md R105). -/
def operandRegs : Instr → List Reg
  | .encodeBcd => [.bcdValue, .bcdWidth]
  | .buildFrame => [.calMinute, .calHour, .calDay, .calMonth, .calYear, .calWeekday, .calDstActive,
      .calDstChangePending]
  | .modulate => [.cfgSampleRate, .cfgCarrierFrequency, .cfgReducedDuration0, .cfgReducedDuration1,
      .cfgLowAmplitude, .cfgHighAmplitude, .frame]
  | .generate => [.calMinute, .calHour, .calDay, .calMonth, .calYear, .calWeekday, .calDstActive,
      .calDstChangePending, .cfgSampleRate, .cfgCarrierFrequency, .cfgReducedDuration0,
      .cfgReducedDuration1, .cfgLowAmplitude, .cfgHighAmplitude]

/-- The result registers of each command (30_encoding.md R44, 60_exceptions.md R102). -/
def resultRegs : Instr → List Reg
  | .encodeBcd => [.bcdOut]
  | .buildFrame => [.frame]
  | .modulate => [.envSamples, .envSampleRate, .envPeakScale]
  | .generate => [.frame, .envSamples, .envSampleRate, .envPeakScale]

/-- The input registers, those the block never writes (10_state.md R11). -/
def inputRegs : List Reg :=
  [.calMinute, .calHour, .calDay, .calMonth, .calYear, .calWeekday, .calDstActive, .calDstChangePending,
   .bcdValue, .bcdWidth, .cfgSampleRate, .cfgCarrierFrequency, .cfgReducedDuration0,
   .cfgReducedDuration1, .cfgLowAmplitude, .cfgHighAmplitude]

/-- The action is the write of the command word of `i` to CMD (10_state.md R21). -/
def HostAction.Issues (a : HostAction) (i : Instr) : Prop :=
  ∃ x, a = .write 0x3F x ∧ HostValue.asCmdWord? x = some (encode i)

/-- `60 · r` samples fit the buffer (60_exceptions.md R111). -/
abbrev State.Fits (s : State) (r : Int) : Prop := ∀ cap ∈ s.envCapacity, 60 * r ≤ (cap : Int)

/-- The sixteen input registers of two states are equal (10_state.md R11). -/
abbrev State.SameInputs (s t : State) : Prop :=
  t.calMinute = s.calMinute ∧ t.calHour = s.calHour ∧ t.calDay = s.calDay ∧
  t.calMonth = s.calMonth ∧ t.calYear = s.calYear ∧ t.calWeekday = s.calWeekday ∧
  t.calDstActive = s.calDstActive ∧ t.calDstChangePending = s.calDstChangePending ∧
  t.bcdValue = s.bcdValue ∧ t.bcdWidth = s.bcdWidth ∧
  t.cfgSampleRate = s.cfgSampleRate ∧ t.cfgCarrierFrequency = s.cfgCarrierFrequency ∧
  t.cfgReducedDuration0 = s.cfgReducedDuration0 ∧ t.cfgReducedDuration1 = s.cfgReducedDuration1 ∧
  t.cfgLowAmplitude = s.cfgLowAmplitude ∧ t.cfgHighAmplitude = s.cfgHighAmplitude

/-- The three ENV registers of two states are equal. -/
abbrev State.SameEnvelope (s t : State) : Prop :=
  t.envSamples = s.envSamples ∧ t.envSampleRate = s.envSampleRate ∧ t.envPeakScale = s.envPeakScale

/-! ### The spec's formulas -/

/-- `v` is encodable in `w` bits: none of the three failure cases of 40_bcd_encoder.md R65 holds. -/
def BcdEncodable (v : Int) (w : Nat) : Prop :=
  0 ≤ v ∧ v < 10 ^ ((w + 3) / 4) ∧
    ∀ k < (w + 3) / 4, v.toNat / 10 ^ k % 10 < 2 ^ min 4 (w - 4 * k)

/-- The bits of a field: `b_i = d_(i div 4)[i mod 4]` (40_bcd_encoder.md R64, 00_scope.md section 5). -/
def bcdBitsOf (v : Int) (w : Nat) : Bits :=
  (List.range w).map fun i => decide (v.toNat / 10 ^ (i / 4) % 10 / 2 ^ (i % 4) % 2 = 1)

/-- Every numeric field lies in its range (41_frame_builder.md R72). -/
abbrev CalendarMoment.InRange (m : CalendarMoment) : Prop :=
  (0 ≤ m.minute ∧ m.minute ≤ 59) ∧ (0 ≤ m.hour ∧ m.hour ≤ 23) ∧ (1 ≤ m.day ∧ m.day ≤ 31) ∧
  (1 ≤ m.month ∧ m.month ≤ 12) ∧ (0 ≤ m.year ∧ m.year ≤ 99) ∧ (1 ≤ m.weekday ∧ m.weekday ≤ 7)

/-- `x` is the value of the calendar register `reg`, it is out of its range, and every field checked
before it is in range (41_frame_builder.md R72, R73). -/
def CalendarMoment.FirstBad (m : CalendarMoment) (reg : Reg) (x : Int) : Prop :=
  match reg with
  | .calMinute => x = m.minute ∧ ¬(0 ≤ x ∧ x ≤ 59)
  | .calHour => x = m.hour ∧ ¬(0 ≤ x ∧ x ≤ 23) ∧ (0 ≤ m.minute ∧ m.minute ≤ 59)
  | .calDay => x = m.day ∧ ¬(1 ≤ x ∧ x ≤ 31) ∧ (0 ≤ m.minute ∧ m.minute ≤ 59) ∧
      (0 ≤ m.hour ∧ m.hour ≤ 23)
  | .calMonth => x = m.month ∧ ¬(1 ≤ x ∧ x ≤ 12) ∧ (0 ≤ m.minute ∧ m.minute ≤ 59) ∧
      (0 ≤ m.hour ∧ m.hour ≤ 23) ∧ (1 ≤ m.day ∧ m.day ≤ 31)
  | .calYear => x = m.year ∧ ¬(0 ≤ x ∧ x ≤ 99) ∧ (0 ≤ m.minute ∧ m.minute ≤ 59) ∧
      (0 ≤ m.hour ∧ m.hour ≤ 23) ∧ (1 ≤ m.day ∧ m.day ≤ 31) ∧ (1 ≤ m.month ∧ m.month ≤ 12)
  | .calWeekday => x = m.weekday ∧ ¬(1 ≤ x ∧ x ≤ 7) ∧ (0 ≤ m.minute ∧ m.minute ≤ 59) ∧
      (0 ≤ m.hour ∧ m.hour ≤ 23) ∧ (1 ≤ m.day ∧ m.day ≤ 31) ∧ (1 ≤ m.month ∧ m.month ≤ 12) ∧
      (0 ≤ m.year ∧ m.year ≤ 99)
  | _ => False

/-- The slots of a bit sequence: Bit1 for 1, Bit0 for 0 (30_encoding.md R59). -/
def slotsOfBits (b : Bits) : List SlotValue := b.map fun x => if x then .bit1 else .bit0

/-- The parity slot of a bit sequence: Bit1 exactly when its number of 1s is odd (41_frame_builder.md R74). -/
def paritySlotOf (b : Bits) : SlotValue := if b.count true % 2 = 1 then .bit1 else .bit0

/-- The date bits: day, weekday, month, year (30_encoding.md R59). -/
def dateBitsOf (m : CalendarMoment) : Bits :=
  bcdBitsOf m.day 6 ++ bcdBitsOf m.weekday 3 ++ bcdBitsOf m.month 5 ++ bcdBitsOf m.year 8

/-- The 60 slots of a moment, as the concatenation of their ranges (30_encoding.md R52 to R61). -/
def frameSlotsOf (m : CalendarMoment) : List SlotValue :=
  [.noPulse] ++ List.replicate 15 .bit0 ++
  slotsOfBits [m.dstChangePending, m.dstActive, !m.dstActive, false, true] ++
  slotsOfBits (bcdBitsOf m.minute 7) ++ [paritySlotOf (bcdBitsOf m.minute 7)] ++
  slotsOfBits (bcdBitsOf m.hour 6) ++ [paritySlotOf (bcdBitsOf m.hour 6)] ++
  slotsOfBits (dateBitsOf m) ++ [paritySlotOf (dateBitsOf m)] ++ [.noPulse]

/-- `width` slots of a frame from slot `first`, as bits. -/
def Frame.bitsAt (f : Frame) (first width : Nat) : Bits :=
  ((f.slots.drop first).take width).map fun v => decide (v = .bit1)

/-- The count of Bit1 over slots `first` to `last`. -/
def Frame.ones (f : Frame) (first last : Nat) : Nat :=
  ((f.slots.drop first).take (last + 1 - first)).count .bit1

/-- The frame invariant of 10_state.md R24. -/
def Frame.MeetsInvariant (f : Frame) : Prop :=
  f.slots[0]? = some .noPulse ∧ f.slots[59]? = some .noPulse ∧
  (∀ i, 1 ≤ i → i ≤ 58 → f.slots[i]? = some .bit0 ∨ f.slots[i]? = some .bit1) ∧
  Frame.ones f 21 28 % 2 = 0 ∧ Frame.ones f 29 35 % 2 = 0 ∧ Frame.ones f 36 58 % 2 = 0

/-- The number of low samples of a second whose slot is `v`, of `r` samples: `L_0`, `L_1`, or none
for a no-pulse second (42_envelope_modulator.md R84, R85). -/
def lowSamplesOf (c : EnvelopeConfig) : SlotValue → Int
  | .noPulse => 0
  | .bit0 => min c.sampleRate (max 0 ⌊c.reducedDuration0 * c.sampleRate⌋)
  | .bit1 => min c.sampleRate (max 0 ⌊c.reducedDuration1 * c.sampleRate⌋)

/-- Sample `k` of second `i` of frame `f`: low first, then high, and the phase
`frac(fc · n / r)` at `n = i · r + k` (42_envelope_modulator.md R85, R86; 30_encoding.md R62). -/
def sampleOf (f : Frame) (c : EnvelopeConfig) (i k : Nat) : Sample where
  env := if (k : Int) < lowSamplesOf c (f.slots.getD i .noPulse) then c.lowAmplitude else c.highAmplitude
  phase := Int.fract (c.carrierFrequency * ((i * c.sampleRate.toNat + k : Nat) : Rat) / c.sampleRate)

/-- The samples of frame `f`: the 60 seconds' samples in order (20_memory.md R37). -/
def samplesOf (f : Frame) (c : EnvelopeConfig) : List Sample :=
  (List.range 60).flatMap fun i => (List.range c.sampleRate.toNat).map fun k => sampleOf f c i k

/-! ### The invariant -/

/-- A STATUS record is one that 30_encoding.md R63 and 60_exceptions.md R100, R103 allow. -/
def Status.Legal (st : Status) : Prop :=
  match st.kind with
  | .none => st.field = 0 ∧ st.value = 0 ∧ st.aux = 0
  | .fieldRange =>
    (∃ reg x low high, (reg, low, high) ∈ [(Reg.calMinute, 0, 59), (Reg.calHour, 0, 23), (Reg.calDay, 1, 31),
        (Reg.calMonth, 1, 12), (Reg.calYear, 0, 99), (Reg.calWeekday, 1, 7)] ∧
      st.field = reg.number ∧ st.value = ((x : Int) : Rat) ∧ (x < low ∨ high < x)) ∧ st.aux = 0
  | .encodingWidth => st.field = 0x08 ∧ ∃ v : Int, st.value = (v : Rat) ∧ ¬BcdEncodable v st.aux
  | .config => (st.field = 0x10 ∨ st.field = 0x11) ∧ st.value ≤ 0 ∧ st.aux = 0

/-- The ENV registers hold an envelope or all hold `⊥`: a positive rate, 60 times as many samples, each
phase in `[0, 1)`, each envelope value within the peak scale (10_state.md R28, 42_envelope_modulator.md R86, R88). -/
def State.EnvelopeCoherent (s : State) : Prop :=
  match s.envSamples, s.envSampleRate, s.envPeakScale with
  | none, none, none => True
  | some xs, some r, some p =>
    0 < r ∧ (xs.length : Int) = 60 * r ∧ ∀ x ∈ xs, 0 ≤ x.phase ∧ x.phase < 1 ∧ |x.env| ≤ p
  | _, _, _ => False

/-- BCD_OUT holds digit groups of at most 9, if it holds a value (40_bcd_encoder.md R66). -/
def State.BcdOutDecimal (s : State) : Prop :=
  ∀ b ∈ s.bcdOut, ∀ k, bcdGroupValue b k ≤ 9

/-- The invariant every step keeps. -/
structure State.Inv (s : State) : Prop where
  envelope : s.EnvelopeCoherent
  status : s.status.Legal
  bcdOut : s.BcdOutDecimal

end Sys2Proof.Machine
end

