-- ==== Sys2Proof/Certificates/Slice0/Obligations.lean ====
section
/-! DEFINITION. The statements for the provers, from the numbered rules of the spec. A statement whose
docstring says "the model's choice" rests on a log entry and not on a rule. -/

open Sys2Proof Sys2Proof.Machine

/-! ### Encodings and the step -/

/-- 30_encoding.md R44, R45: the four command words, and every other word is reserved. -/
def Obligations.CommandWordsDecodeByTheOpcodeMap : Prop :=
  decodeWord 0x01 = .ok .encodeBcd ∧ decodeWord 0x02 = .ok .buildFrame ∧
  decodeWord 0x03 = .ok .modulate ∧ decodeWord 0x04 = .ok .generate ∧
  ∀ c : CmdWord, c = 0x00 ∨ 0x05 ≤ c.toNat → decodeWord c = .error (.reserved c)

/-- 30_encoding.md R43, R44: decoding an encoded command gives it back with the rest of the bytes, and
a word that decodes is the word of its command. -/
def Obligations.DecodeAndEncodeAgree : Prop :=
  (∀ (i : Instr) (rest : List Byte), decode (encode i :: rest) = .ok (i, rest)) ∧
  (∀ (c : CmdWord) (i : Instr), decodeWord c = .ok i → encode i = c)

/-- 60_exceptions.md R109, 30_encoding.md R45: the host writes a reserved word to CMD. -/
def Obligations.ReservedCommandWordFaults : Prop :=
  ∀ (s : State) (c : CmdWord), c = 0x00 ∨ 0x05 ≤ c.toNat →
    hostWrite 0x3F (.int c.toNat) s = .fault (.reservedCommand c)

/-- 20_memory.md R39, R40, 10_state.md R21: a step performs the host's next action, and the write of a
command word to CMD runs the command it decodes to in that step. A host without actions changes
nothing (the model's choice, log entry 2). -/
def Obligations.StepRunsTheDecodedCommand : Prop :=
  (∀ (s : State) (c : CmdWord) (i : Instr) (rest : List HostAction),
    s.program = .write 0x3F (.int c.toNat) :: rest → decodeWord c = .ok i →
    step s = exec i { s with program := rest }) ∧
  (∀ (s : State) (a : HostAction) (rest : List HostAction), s.program = a :: rest →
    step s = perform a { s with program := rest }) ∧
  (∀ s : State, s.program = [] → step s = .next s)

/-! ### Reset -/

/-- 70_reset_and_hazards.md R117: every register is `⊥` after reset and STATUS is NONE; a RESET gives
exactly these values whatever the registers held. -/
def Obligations.ResetGivesEveryRegisterItsValue : Prop :=
  (∀ r : Reg, r ≠ .status → State.reset.holdsValue r = false) ∧
  State.reset.status = ⟨.none, 0, 0, 0⟩ ∧
  ∀ s : State, ∃ t, perform .reset s = .next t ∧
    (∀ r : Reg, r ≠ .status → t.holdsValue r = false) ∧ t.status = ⟨.none, 0, 0, 0⟩

/-- 70_reset_and_hazards.md R116: two resets in a row are the same as one, and what the registers held
before has no influence. -/
def Obligations.ResetForgetsTheRegisters : Prop :=
  (∀ s t : State, perform .reset s = .next t → perform .reset t = .next t) ∧
  (∀ s s' t t' : State, s'.program = s.program → s'.returned = s.returned → s'.envCapacity = s.envCapacity →
    perform .reset s = .next t → perform .reset s' = .next t' → t' = t)

/-! ### ENCODE_BCD -/

/-- 40_bcd_encoder.md R64, R69: an encodable BCD_VALUE goes to BCD_OUT, least significant bit of the
units digit first, STATUS is NONE, and nothing else changes. -/
def Obligations.EncodeBcdWritesTheField : Prop :=
  ∀ (s : State) (v : Int) (w : Nat), s.bcdValue = some v → s.bcdWidth = some w → BcdEncodable v w →
    exec .encodeBcd s = .next { s with bcdOut := some (bcdBitsOf v w), status := ⟨.none, 0, 0, 0⟩ }

/-- 40_bcd_encoder.md R69, R70, 60_exceptions.md R102: a value that is not encodable sets BCD_OUT to
`⊥` and records ENCODING_WIDTH, 0x08, the value and the width; nothing else changes. -/
def Obligations.EncodeBcdReportsTheWidthError : Prop :=
  ∀ (s : State) (v : Int) (w : Nat), s.bcdValue = some v → s.bcdWidth = some w → ¬BcdEncodable v w →
    exec .encodeBcd s = .next { s with bcdOut := none, status := ⟨.encodingWidth, 0x08, v, w⟩ }

/-- 40_bcd_encoder.md R65: EncodeBCD fails in exactly the three cases, and returns no bits then. -/
def Obligations.EncodeBcdFailsInExactlyThreeCases : Prop :=
  ∀ (v : Int) (w : Nat), encodeBcd v w = none ↔
    v < 0 ∨ 10 ^ ((w + 3) / 4) ≤ v ∨
    ∃ k < (w + 3) / 4, 2 ^ min 4 (w - 4 * k) ≤ v.toNat / 10 ^ k % 10

/-- 40_bcd_encoder.md R66: the round trip, the digit bound of every group, and the weights. -/
def Obligations.BcdResultDecodesToItsValue : Prop :=
  ∀ (v : Int) (w : Nat) (b : Bits), encodeBcd v w = some b →
    b.length = w ∧ (decodeBcd b : Int) = v ∧ (∀ k < bcdGroups w, bcdGroupValue b k ≤ 9) ∧
    decodeBcd b = ((List.range w).map fun i =>
      (if b.getD i false then 1 else 0) * (10 ^ (i / 4) * 2 ^ (i % 4))).sum

/-- The other direction of 40_bcd_encoder.md R66: a bit sequence whose groups hold decimal digits is
the encoding of the number it decodes to. -/
def Obligations.DecimalBitsEncodeBack : Prop :=
  ∀ b : Bits, (∀ k < bcdGroups b.length, bcdGroupValue b k ≤ 9) →
    encodeBcd (decodeBcd b : Int) b.length = some b

/-- 40_bcd_encoder.md R67: the corner cases of EncodeBCD. -/
def Obligations.BcdCornerCases : Prop :=
  (∀ v : Int, encodeBcd v 0 = if v = 0 then some [] else none) ∧
  (∀ (v : Int) (w : Nat), 1 ≤ w → w ≤ 4 →
    ((encodeBcd v w).isSome = true ↔ 0 ≤ v ∧ v ≤ min 9 (2 ^ w - 1))) ∧
  (∀ (v : Int) (w : Nat), 5 ≤ w → w ≤ 8 →
    ((encodeBcd v w).isSome = true ↔ 0 ≤ v ∧ v ≤ 10 * min 9 (2 ^ (w - 4) - 1) + 9)) ∧
  (∀ w : Nat, 8 < w → 3 ≤ bcdGroups w ∧ ∀ k, k + 1 < bcdGroups w → bcdGroupWidth w k = 4) ∧
  (∀ w : Nat, encodeBcd 0 w = some (List.replicate w false)) ∧
  encodeBcd 60 7 = some [false, false, false, false, false, true, true]

/-! ### BUILD_FRAME -/

/-- 41_frame_builder.md R71, R80, 30_encoding.md R52 to R61: an in-range moment gives the frame of the
slot map, STATUS is NONE, and nothing else changes. -/
def Obligations.BuildFrameWritesTheFrame : Prop :=
  ∀ (s : State) (m : CalendarMoment), s.HoldsCalendar m → m.InRange →
    ∃ f : Frame, f.slots = frameSlotsOf m ∧
      exec .buildFrame s = .next { s with frame := some f, status := ⟨.none, 0, 0, 0⟩ }

/-- 41_frame_builder.md R73: the first field outside its range, in the order minute, hour, day, month,
year, weekday, is reported, FRAME becomes `⊥`, and nothing else changes; a moment not in range has one. -/
def Obligations.BuildFrameReportsTheFirstBadField : Prop :=
  (∀ (s : State) (m : CalendarMoment) (reg : Reg) (x : Int), s.HoldsCalendar m → m.FirstBad reg x →
    exec .buildFrame s = .next { s with frame := none, status := ⟨.fieldRange, reg.number, x, 0⟩ }) ∧
  (∀ m : CalendarMoment, ¬m.InRange → ∃ reg x, m.FirstBad reg x)

/-- 41_frame_builder.md R81: after a BUILD_FRAME that ended in an error FRAME holds `⊥`, and a MODULATE
faults on it. -/
def Obligations.FailedBuildFrameLeavesNoFrame : Prop :=
  ∀ s t : State, exec .buildFrame s = .next t → t.status.kind ≠ .none →
    t.frame = none ∧ ∀ c : EnvelopeConfig, t.HoldsConfig c → exec .modulate t = .fault (.unwrittenRead 0x21)

/-- 41_frame_builder.md R75: after the range check no field fails to encode; a field that did would be
reported with its register and its width. -/
def Obligations.NoFieldFailsAfterTheRangeCheck : Prop :=
  (∀ m : CalendarMoment, m.InRange →
    (encodeBcd m.minute 7).isSome = true ∧ (encodeBcd m.hour 6).isSome = true ∧
    (encodeBcd m.day 6).isSome = true ∧ (encodeBcd m.weekday 3).isSome = true ∧
    (encodeBcd m.month 5).isSome = true ∧ (encodeBcd m.year 8).isSome = true) ∧
  (∀ (reg : Reg) (v : Int) (w : Nat), encodeBcd v w = none →
    encodeField reg v w = .error (.encodingWidth reg v w) ∧
    (BlockError.encodingWidth reg v w).status = ⟨.encodingWidth, reg.number, v, w⟩)

/-- 41_frame_builder.md R74: even parity, and the three parity slots of a built frame. -/
def Obligations.ParityIsEven : Prop :=
  (∀ b : Bits, evenParity b = b.foldl xor false) ∧
  (∀ b : Bits, evenParity b = true ↔ popcount b % 2 = 1) ∧
  (∀ b : Bits, (b ++ [evenParity b]).count true % 2 = 0) ∧
  (∀ (m : CalendarMoment) (f : Frame), buildFrame m = .ok f →
    f.slots[28]? = some (paritySlotOf (Frame.bitsAt f 21 7)) ∧
    f.slots[35]? = some (paritySlotOf (Frame.bitsAt f 29 6)) ∧
    f.slots[58]? = some (paritySlotOf (Frame.bitsAt f 36 22)))

/-- 41_frame_builder.md R79: what every frame Frame returns meets. -/
def Obligations.BuiltFrameMeetsTheFrameInvariant : Prop :=
  ∀ (m : CalendarMoment) (f : Frame), buildFrame m = .ok f →
    f.slots.length = 60 ∧ Frame.MeetsInvariant f ∧
    f.slots[28]? = some (paritySlotOf (Frame.bitsAt f 21 7)) ∧
    f.slots[35]? = some (paritySlotOf (Frame.bitsAt f 29 6)) ∧
    f.slots[58]? = some (paritySlotOf (Frame.bitsAt f 36 22)) ∧
    f.slots[20]? = some .bit1 ∧
    ((f.slots[17]? = some .bit1 ∧ f.slots[18]? = some .bit0) ∨
     (f.slots[17]? = some .bit0 ∧ f.slots[18]? = some .bit1))

/-- 40_bcd_encoder.md R66 and 41_frame_builder.md R71 together: the frame BUILD_FRAME leaves in FRAME
gives the calendar back, every field and both DST flags. -/
def Obligations.BuiltFrameDecodesToItsCalendar : Prop :=
  ∀ (s t : State) (m : CalendarMoment), s.HoldsCalendar m → exec .buildFrame s = .next t →
    t.status.kind = .none → ∃ f, t.frame = some f ∧
      (decodeBcd (Frame.bitsAt f 21 7) : Int) = m.minute ∧ (decodeBcd (Frame.bitsAt f 29 6) : Int) = m.hour ∧
      (decodeBcd (Frame.bitsAt f 36 6) : Int) = m.day ∧ (decodeBcd (Frame.bitsAt f 42 3) : Int) = m.weekday ∧
      (decodeBcd (Frame.bitsAt f 45 5) : Int) = m.month ∧ (decodeBcd (Frame.bitsAt f 50 8) : Int) = m.year ∧
      (f.slots[17]? = some .bit1 ↔ m.dstActive = true) ∧
      (f.slots[16]? = some .bit1 ↔ m.dstChangePending = true)

/-! ### MODULATE -/

/-- 42_envelope_modulator.md R82, R92, R93: a valid configuration and any frame give the envelope,
60 seconds of samples in order, the rate and the peak scale; STATUS is NONE and nothing else changes. -/
def Obligations.ModulateWritesTheEnvelope : Prop :=
  ∀ (s : State) (c : EnvelopeConfig) (f : Frame), s.HoldsConfig c → s.frame = some f →
    0 < c.sampleRate → 0 < c.carrierFrequency → s.Fits c.sampleRate →
    exec .modulate s = .next { s with
      envSamples := some (samplesOf f c), envSampleRate := some c.sampleRate,
      envPeakScale := some (max |c.lowAmplitude| |c.highAmplitude|), status := ⟨.none, 0, 0, 0⟩ }

/-- 42_envelope_modulator.md R83: a non-positive rate, then a non-positive carrier, is the ConfigError;
the ENV registers become `⊥` and nothing else changes. At a positive rate the samples must fit the buffer,
since CapacityExceeded is checked before (60_exceptions.md R105). No other input makes Envelope fail. -/
def Obligations.ModulateReportsTheConfigError : Prop :=
  (∀ (s : State) (c : EnvelopeConfig) (f : Frame), s.HoldsConfig c → s.frame = some f → c.sampleRate ≤ 0 →
    exec .modulate s = .next { s with
      envSamples := none, envSampleRate := none, envPeakScale := none,
      status := ⟨.config, 0x10, c.sampleRate, 0⟩ }) ∧
  (∀ (s : State) (c : EnvelopeConfig) (f : Frame), s.HoldsConfig c → s.frame = some f → 0 < c.sampleRate →
    s.Fits c.sampleRate → c.carrierFrequency ≤ 0 →
    exec .modulate s = .next { s with
      envSamples := none, envSampleRate := none, envPeakScale := none,
      status := ⟨.config, 0x11, c.carrierFrequency, 0⟩ }) ∧
  (∀ (f : Frame) (c : EnvelopeConfig),
    (∃ e, modulateFrame f c = .error e) ↔ c.sampleRate ≤ 0 ∨ c.carrierFrequency ≤ 0)

/-- 42_envelope_modulator.md R84: the low segment, its bounds and its clipping. -/
def Obligations.LowSegmentCount : Prop :=
  ∀ (d : Rat) (r : Int), 0 < r →
    lowCount d r = min r (max 0 ⌊d * r⌋) ∧
    (0 ≤ d → d ≤ 1 → d * r - 1 < lowCount d r ∧ (lowCount d r : Rat) ≤ d * r) ∧
    (d < 0 → lowCount d r = 0) ∧ (1 < d → lowCount d r = r)

/-- 42_envelope_modulator.md R90: the low samples of a bit-carrying second are exactly its first `L_b`,
and their duration is within one sample of `d_b`; with equal amplitudes the segments look the same. -/
def Obligations.LowSamplesComeFirst : Prop :=
  ∀ (f : Frame) (c : EnvelopeConfig) (e : Envelope), modulateFrame f c = .ok e →
    (c.lowAmplitude ≠ c.highAmplitude → ∀ (i : Nat) (v : SlotValue), f.slots[i]? = some v → v ≠ .noPulse →
      ∀ k : Nat, (k : Int) < c.sampleRate → ∃ x, e.samples[i * c.sampleRate.toNat + k]? = some x ∧
        (x.env = c.lowAmplitude ↔ (k : Int) < lowSamplesOf c v)) ∧
    (0 ≤ c.reducedDuration0 → c.reducedDuration0 ≤ 1 →
      |(lowSamplesOf c .bit0 : Rat) / c.sampleRate - c.reducedDuration0| ≤ 1 / c.sampleRate) ∧
    (0 ≤ c.reducedDuration1 → c.reducedDuration1 ≤ 1 →
      |(lowSamplesOf c .bit1 : Rat) / c.sampleRate - c.reducedDuration1| ≤ 1 / c.sampleRate) ∧
    (c.lowAmplitude = c.highAmplitude → ∀ x ∈ e.samples, x.env = c.lowAmplitude)

/-- 42_envelope_modulator.md R89: the envelope has exactly `60 · r` samples, `r` in every second. -/
def Obligations.EnvelopeLength : Prop :=
  ∀ (f : Frame) (c : EnvelopeConfig) (e : Envelope), modulateFrame f c = .ok e →
    (e.samples.length : Int) = 60 * c.sampleRate ∧
    ∀ i < 60, ((e.samples.drop (i * c.sampleRate.toNat)).take c.sampleRate.toNat).length = c.sampleRate.toNat

/-- 10_state.md R28, 42_envelope_modulator.md R85: the samples of a second depend on the frame through
that second's slot alone. -/
def Obligations.SecondsDependOnTheirSlotAlone : Prop :=
  ∀ (f f' : Frame) (c : EnvelopeConfig) (e e' : Envelope), modulateFrame f c = .ok e → modulateFrame f' c = .ok e' →
    ∀ i < 60, f.slots[i]? = f'.slots[i]? →
      (e.samples.drop (i * c.sampleRate.toNat)).take c.sampleRate.toNat =
      (e'.samples.drop (i * c.sampleRate.toNat)).take c.sampleRate.toNat

/-- 42_envelope_modulator.md R86: the phase of sample `n` is `frac(fc · n / r)` in `[0, 1)`, 0 at the
start, advancing by `fc / r` a sample across every boundary, whatever the frame and the amplitudes. -/
def Obligations.CarrierPhaseIsContinuous : Prop :=
  ∀ (f : Frame) (c : EnvelopeConfig) (e : Envelope), modulateFrame f c = .ok e →
    (∀ (n : Nat) (x : Sample), e.samples[n]? = some x →
      x.phase = Int.fract (c.carrierFrequency * n / c.sampleRate) ∧ 0 ≤ x.phase ∧ x.phase < 1) ∧
    (∀ x : Sample, e.samples[0]? = some x → x.phase = 0) ∧
    (∀ (n : Nat) (x y : Sample), e.samples[n]? = some x → e.samples[n + 1]? = some y →
      ∃ z : Int, y.phase = x.phase + c.carrierFrequency / c.sampleRate + z) ∧
    (∀ (f' : Frame) (c' : EnvelopeConfig) (e' : Envelope), modulateFrame f' c' = .ok e' →
      c'.sampleRate = c.sampleRate → c'.carrierFrequency = c.carrierFrequency →
      e'.samples.map (·.phase) = e.samples.map (·.phase))

/-- 42_envelope_modulator.md R88, for every `sinTurns` with property BOUNDED: the peak scale bounds every
envelope value and every sample, and is 0 when both amplitudes are. -/
def Obligations.PeakScaleBoundsEverySample : Prop :=
  ∀ (f : Frame) (c : EnvelopeConfig) (e : Envelope), modulateFrame f c = .ok e →
    e.peakScale = max |c.lowAmplitude| |c.highAmplitude| ∧
    (∀ x ∈ e.samples, |x.env| ≤ e.peakScale) ∧
    (∀ sinTurns : Config.SinTurns, sinTurns.Bounded →
      ∀ x ∈ e.samples, |x.value sinTurns| ≤ (e.peakScale : Real)) ∧
    (c.lowAmplitude = 0 → c.highAmplitude = 0 → e.peakScale = 0)

/-- 42_envelope_modulator.md R87, R92: with the carrier a multiple of the rate every phase is 0, and with
property QUARTER_EXACT every sample is 0. -/
def Obligations.CarrierAtTheRateIsSilent : Prop :=
  ∀ (f : Frame) (c : EnvelopeConfig) (e : Envelope) (j : Int), modulateFrame f c = .ok e →
    c.carrierFrequency = j * c.sampleRate →
    (∀ x ∈ e.samples, x.phase = 0) ∧
    ∀ sinTurns : Config.SinTurns, sinTurns.QuarterExact → ∀ x ∈ e.samples, x.value sinTurns = 0

/-- 00_scope.md R8, 42_envelope_modulator.md R87: the reference sine has both properties, so claims that
assume one of them are claims about it too. -/
def Obligations.ReferenceSineHasBothProperties : Prop :=
  ∀ sinTurns : Config.SinTurns, sinTurns.IsReference → sinTurns.QuarterExact ∧ sinTurns.Bounded

/-- 70_reset_and_hazards.md R125: the phase one minute after the start is that of the next envelope's
first sample, 0, exactly when `fc · 60` is an integer. -/
def Obligations.PhaseJoinsTheNextMinute : Prop :=
  ∀ c : EnvelopeConfig, 0 < c.sampleRate →
    (carrierPhase c (60 * c.sampleRate.toNat) = 0 ↔ ∃ z : Int, c.carrierFrequency * 60 = z)

/-- 60_exceptions.md R111: a command that would produce more samples than the buffer holds faults with
their number, and an unbounded buffer never does. -/
def Obligations.CapacityExceededFaults : Prop :=
  (∀ (s : State) (c : EnvelopeConfig) (f : Frame) (cap : Nat), s.HoldsConfig c → s.frame = some f →
    s.envCapacity = some cap → (cap : Int) < 60 * c.sampleRate →
    exec .modulate s = .fault (.capacityExceeded (60 * c.sampleRate).toNat)) ∧
  (∀ (s : State) (m : CalendarMoment) (c : EnvelopeConfig) (cap : Nat), s.HoldsCalendar m → s.HoldsConfig c →
    s.envCapacity = some cap → (cap : Int) < 60 * c.sampleRate →
    exec .generate s = .fault (.capacityExceeded (60 * c.sampleRate).toNat)) ∧
  (∀ (i : Instr) (s : State) (n : Nat), s.envCapacity = none → exec i s ≠ .fault (.capacityExceeded n))

/-! ### GENERATE -/

/-- 43_pipeline.md R95: with an in-range moment and a valid configuration GENERATE leaves the frame of
the moment and its envelope, STATUS NONE, and changes nothing else. -/
def Obligations.GenerateWritesFrameAndEnvelope : Prop :=
  ∀ (s : State) (m : CalendarMoment) (c : EnvelopeConfig), s.HoldsCalendar m → s.HoldsConfig c →
    m.InRange → 0 < c.sampleRate → 0 < c.carrierFrequency → s.Fits c.sampleRate →
    ∃ f : Frame, f.slots = frameSlotsOf m ∧
      exec .generate s = .next { s with
        frame := some f, envSamples := some (samplesOf f c), envSampleRate := some c.sampleRate,
        envPeakScale := some (max |c.lowAmplitude| |c.highAmplitude|), status := ⟨.none, 0, 0, 0⟩ }

/-- 43_pipeline.md R95: a bad field invalidates FRAME and ENV_*, whether or not the configuration is valid;
a bad configuration keeps the new frame and invalidates ENV_*. At a positive rate the samples must fit the
buffer, since CapacityExceeded is checked before (60_exceptions.md R105). -/
def Obligations.GenerateReportsItsErrors : Prop :=
  (∀ (s : State) (m : CalendarMoment) (c : EnvelopeConfig) (reg : Reg) (x : Int),
    s.HoldsCalendar m → s.HoldsConfig c → s.Fits c.sampleRate → m.FirstBad reg x →
    exec .generate s = .next { s with
      frame := none, envSamples := none, envSampleRate := none, envPeakScale := none,
      status := ⟨.fieldRange, reg.number, x, 0⟩ }) ∧
  (∀ (s : State) (m : CalendarMoment) (c : EnvelopeConfig), s.HoldsCalendar m → s.HoldsConfig c → m.InRange →
    c.sampleRate ≤ 0 → ∃ f : Frame, f.slots = frameSlotsOf m ∧
      exec .generate s = .next { s with
        frame := some f, envSamples := none, envSampleRate := none, envPeakScale := none,
        status := ⟨.config, 0x10, c.sampleRate, 0⟩ }) ∧
  (∀ (s : State) (m : CalendarMoment) (c : EnvelopeConfig), s.HoldsCalendar m → s.HoldsConfig c → m.InRange →
    0 < c.sampleRate → s.Fits c.sampleRate → c.carrierFrequency ≤ 0 → ∃ f : Frame, f.slots = frameSlotsOf m ∧
      exec .generate s = .next { s with
        frame := some f, envSamples := none, envSampleRate := none, envPeakScale := none,
        status := ⟨.config, 0x11, c.carrierFrequency, 0⟩ })

/-- 43_pipeline.md R95: where BUILD_FRAME succeeds, GENERATE does what MODULATE does after it, in every
outcome: an envelope, an error or a fault. -/
def Obligations.GenerateIsBuildFrameThenModulate : Prop :=
  ∀ s u : State, exec .buildFrame s = .next u → u.status.kind = .none →
    exec .generate s = exec .modulate u

/-! ### Rules over all commands -/

/-- 60_exceptions.md R107: a command or a host read that reads a register holding `⊥`; for a command the
first such operand in the listed order. -/
def Obligations.UnwrittenReadFaults : Prop :=
  (∀ (i : Instr) (s : State) (r : Reg), (operandRegs i).find? (fun r => !s.holdsValue r) = some r →
    exec i s = .fault (.unwrittenRead r.number)) ∧
  (∀ (s : State) (r : Reg), r ≠ .cmd → s.holdsValue r = false →
    hostRead r.number s = .fault (.unwrittenRead r.number))

/-- 70_reset_and_hazards.md R118, 60_exceptions.md R105: a command completes exactly when all its operands
are written and, where it produces samples, they fit the buffer. -/
def Obligations.CommandsCompleteExactlyWhenReady : Prop :=
  ∀ (i : Instr) (s : State), (∃ t, exec i s = .next t) ↔
    (∀ r ∈ operandRegs i, s.holdsValue r = true) ∧
    (i = .modulate ∨ i = .generate → ∀ r, s.cfgSampleRate = some r → s.Fits r)

/-- 60_exceptions.md R102, 10_state.md R11: a command writes STATUS and its own result registers and
nothing else. The host's queue, its reads and the parameter are kept too. -/
def Obligations.CommandsChangeOnlyTheirResults : Prop :=
  ∀ (i : Instr) (s t : State), exec i s = .next t →
    s.SameInputs t ∧ t.program = s.program ∧ t.returned = s.returned ∧ t.envCapacity = s.envCapacity ∧
    (i ≠ .encodeBcd → t.bcdOut = s.bcdOut) ∧
    (i = .encodeBcd ∨ i = .modulate → t.frame = s.frame) ∧
    (i = .encodeBcd ∨ i = .buildFrame → s.SameEnvelope t)

/-- 20_memory.md R42: two runs of one command on equal operands (and one capacity) end alike: equal
STATUS and result registers, or the same fault. -/
def Obligations.CommandsAreDeterministic : Prop :=
  ∀ (i : Instr) (s s' : State), s'.envCapacity = s.envCapacity →
    (∀ r ∈ operandRegs i, readRegister r s' = readRegister r s) →
    (∀ t, exec i s = .next t → ∃ t', exec i s' = .next t' ∧ t'.status = t.status ∧
      ∀ r ∈ resultRegs i, readRegister r t' = readRegister r t) ∧
    (∀ f, exec i s = .fault f → exec i s' = .fault f)

/-- 20_memory.md R39: a command written twice gives the same results the second time. -/
def Obligations.RepeatedCommandChangesNothing : Prop :=
  ∀ (i : Instr) (s t : State), exec i s = .next t → exec i t = .next t

/-- 60_exceptions.md R101 to R103: a command that ends leaves STATUS NONE with its results written, or an
error kind with a result at `⊥`; no host action but a command or RESET changes STATUS. -/
def Obligations.StatusDescribesTheLastCommand : Prop :=
  (∀ (i : Instr) (s t : State), exec i s = .next t →
    (t.status = ⟨.none, 0, 0, 0⟩ ∧ ∀ r ∈ resultRegs i, t.holdsValue r = true) ∨
    (t.status.kind ≠ .none ∧ ∃ r ∈ resultRegs i, t.holdsValue r = false)) ∧
  (∀ (s t : State) (a : HostAction) (rest : List HostAction), s.program = a :: rest → step s = .next t →
    t.status ≠ s.status → a = .reset ∨ ∃ i, HostAction.Issues a i)

/-- 10_state.md R30: a result register changes only by a command that writes or invalidates it, by a host
write of FRAME, or by reset. -/
def Obligations.ResultRegistersChangeOnlyByTheirWriters : Prop :=
  ∀ (s t : State) (a : HostAction) (rest : List HostAction), s.program = a :: rest → step s = .next t →
    (t.bcdOut ≠ s.bcdOut → a = .reset ∨ HostAction.Issues a .encodeBcd) ∧
    (t.frame ≠ s.frame → a = .reset ∨ HostAction.Issues a .buildFrame ∨ HostAction.Issues a .generate ∨
      ∃ x, a = .write 0x21 x) ∧
    (¬s.SameEnvelope t → a = .reset ∨ HostAction.Issues a .modulate ∨ HostAction.Issues a .generate)

/-- 70_reset_and_hazards.md R119: input registers keep their values across commands until the host
rewrites them or a reset occurs. -/
def Obligations.InputRegistersKeepTheirValues : Prop :=
  (∀ (i : Instr) (s t : State), exec i s = .next t → s.SameInputs t) ∧
  (∀ (s t : State) (a : HostAction) (rest : List HostAction) (r : Reg), s.program = a :: rest →
    step s = .next t → r ∈ inputRegs → readRegister r t ≠ readRegister r s →
    a = .reset ∨ ∃ x, a = .write r.number x)

/-! ### Host accesses -/

/-- 43_pipeline.md R97: a host write of an input register stores the value as given, an integer literal in
a rational register too; a write to a read-only register or to an unassigned number is AccessRefused. -/
def Obligations.HostWriteStoresOrIsRefusedAccess : Prop :=
  (∀ (s : State) (v : Int),
    hostWrite 0x00 (.int v) s = .next { s with calMinute := some v } ∧
    hostWrite 0x01 (.int v) s = .next { s with calHour := some v } ∧
    hostWrite 0x02 (.int v) s = .next { s with calDay := some v } ∧
    hostWrite 0x03 (.int v) s = .next { s with calMonth := some v } ∧
    hostWrite 0x04 (.int v) s = .next { s with calYear := some v } ∧
    hostWrite 0x05 (.int v) s = .next { s with calWeekday := some v } ∧
    hostWrite 0x08 (.int v) s = .next { s with bcdValue := some v } ∧
    hostWrite 0x10 (.int v) s = .next { s with cfgSampleRate := some v }) ∧
  (∀ (s : State) (b : Bool),
    hostWrite 0x06 (.bool b) s = .next { s with calDstActive := some b } ∧
    hostWrite 0x07 (.bool b) s = .next { s with calDstChangePending := some b }) ∧
  (∀ (s : State) (w : Nat), hostWrite 0x09 (.int w) s = .next { s with bcdWidth := some w }) ∧
  (∀ (s : State) (q : Rat),
    hostWrite 0x11 (.rat q) s = .next { s with cfgCarrierFrequency := some q } ∧
    hostWrite 0x12 (.rat q) s = .next { s with cfgReducedDuration0 := some q } ∧
    hostWrite 0x13 (.rat q) s = .next { s with cfgReducedDuration1 := some q } ∧
    hostWrite 0x14 (.rat q) s = .next { s with cfgLowAmplitude := some q } ∧
    hostWrite 0x15 (.rat q) s = .next { s with cfgHighAmplitude := some q }) ∧
  (∀ (s : State) (v : Int),
    hostWrite 0x11 (.int v) s = .next { s with cfgCarrierFrequency := some (v : Rat) } ∧
    hostWrite 0x12 (.int v) s = .next { s with cfgReducedDuration0 := some (v : Rat) } ∧
    hostWrite 0x13 (.int v) s = .next { s with cfgReducedDuration1 := some (v : Rat) } ∧
    hostWrite 0x14 (.int v) s = .next { s with cfgLowAmplitude := some (v : Rat) } ∧
    hostWrite 0x15 (.int v) s = .next { s with cfgHighAmplitude := some (v : Rat) }) ∧
  (∀ (s : State) (n : RegNum) (x : HostValue),
    n = 0x20 ∨ n = 0x22 ∨ n = 0x23 ∨ n = 0x24 ∨ n = 0x30 ∨ (∀ r : Reg, r.number ≠ n) →
    hostWrite n x s = .fault (.accessRefused n .write))

/-- 43_pipeline.md R96, 60_exceptions.md R110: a host write of FRAME stores the 60 slots as given and
changes nothing else; the lowest slot with the reserved code is the fault. -/
def Obligations.HostWriteOfFrame : Prop :=
  (∀ (s : State) (image : FrameImage), (∀ i < 60, slotCodeAt image i ≠ 0b11) →
    ∃ f : Frame, hostWrite 0x21 (.frame image) s = .next { s with frame := some f } ∧
      ∀ i < 60, f.slots[i]?.map SlotValue.code = some (slotCodeAt image i)) ∧
  (∀ (s : State) (image : FrameImage) (i : Nat), i < 60 → slotCodeAt image i = 0b11 →
    (∀ j < i, slotCodeAt image j ≠ 0b11) →
    hostWrite 0x21 (.frame image) s = .fault (.reservedSlotCode i))

/-- 30_encoding.md R51: a frame and its bit image determine each other, slot `i` in bits `[2i+1:2i]`. -/
def Obligations.FrameImageRoundTrip : Prop :=
  (∀ f : Frame, decodeFrame (encodeFrame f) = .ok f) ∧
  (∀ (image : FrameImage) (f : Frame), decodeFrame image = .ok f → encodeFrame f = image) ∧
  (∀ (f : Frame) (i : Nat), i < 60 →
    f.slots[i]?.map SlotValue.code = some ((encodeFrame f).extractLsb' (2 * i) 2))

/-- 43_pipeline.md R98: a host read returns the whole value and changes no register; `⊥` is UnwrittenRead,
CMD and unassigned numbers are AccessRefused, and STATUS always reads. -/
def Obligations.HostReadReturnsTheValue : Prop :=
  (∀ (s : State) (v : Int),
    (s.calMinute = some v → hostRead 0x00 s = .next { s with returned := s.returned ++ [⟨0x00, .int v⟩] }) ∧
    (s.calHour = some v → hostRead 0x01 s = .next { s with returned := s.returned ++ [⟨0x01, .int v⟩] }) ∧
    (s.calDay = some v → hostRead 0x02 s = .next { s with returned := s.returned ++ [⟨0x02, .int v⟩] }) ∧
    (s.calMonth = some v → hostRead 0x03 s = .next { s with returned := s.returned ++ [⟨0x03, .int v⟩] }) ∧
    (s.calYear = some v → hostRead 0x04 s = .next { s with returned := s.returned ++ [⟨0x04, .int v⟩] }) ∧
    (s.calWeekday = some v → hostRead 0x05 s = .next { s with returned := s.returned ++ [⟨0x05, .int v⟩] }) ∧
    (s.bcdValue = some v → hostRead 0x08 s = .next { s with returned := s.returned ++ [⟨0x08, .int v⟩] }) ∧
    (s.cfgSampleRate = some v → hostRead 0x10 s = .next { s with returned := s.returned ++ [⟨0x10, .int v⟩] }) ∧
    (s.envSampleRate = some v → hostRead 0x23 s = .next { s with returned := s.returned ++ [⟨0x23, .int v⟩] })) ∧
  (∀ (s : State) (b : Bool),
    (s.calDstActive = some b → hostRead 0x06 s = .next { s with returned := s.returned ++ [⟨0x06, .bool b⟩] }) ∧
    (s.calDstChangePending = some b →
      hostRead 0x07 s = .next { s with returned := s.returned ++ [⟨0x07, .bool b⟩] })) ∧
  (∀ (s : State) (w : Nat),
    s.bcdWidth = some w → hostRead 0x09 s = .next { s with returned := s.returned ++ [⟨0x09, .nat w⟩] }) ∧
  (∀ (s : State) (q : Rat),
    (s.cfgCarrierFrequency = some q → hostRead 0x11 s = .next { s with returned := s.returned ++ [⟨0x11, .rat q⟩] }) ∧
    (s.cfgReducedDuration0 = some q → hostRead 0x12 s = .next { s with returned := s.returned ++ [⟨0x12, .rat q⟩] }) ∧
    (s.cfgReducedDuration1 = some q → hostRead 0x13 s = .next { s with returned := s.returned ++ [⟨0x13, .rat q⟩] }) ∧
    (s.cfgLowAmplitude = some q → hostRead 0x14 s = .next { s with returned := s.returned ++ [⟨0x14, .rat q⟩] }) ∧
    (s.cfgHighAmplitude = some q → hostRead 0x15 s = .next { s with returned := s.returned ++ [⟨0x15, .rat q⟩] }) ∧
    (s.envPeakScale = some q → hostRead 0x24 s = .next { s with returned := s.returned ++ [⟨0x24, .rat q⟩] })) ∧
  (∀ (s : State) (b : Bits),
    s.bcdOut = some b → hostRead 0x20 s = .next { s with returned := s.returned ++ [⟨0x20, .bits b⟩] }) ∧
  (∀ (s : State) (f : Frame),
    s.frame = some f → hostRead 0x21 s = .next { s with returned := s.returned ++ [⟨0x21, .frame f⟩] }) ∧
  (∀ (s : State) (xs : List Sample),
    s.envSamples = some xs → hostRead 0x22 s = .next { s with returned := s.returned ++ [⟨0x22, .samples xs⟩] }) ∧
  (∀ s : State, hostRead 0x30 s = .next { s with returned := s.returned ++ [⟨0x30, .status s.status⟩] }) ∧
  (∀ (s : State) (r : Reg), r ≠ .cmd → s.holdsValue r = false →
    hostRead r.number s = .fault (.unwrittenRead r.number)) ∧
  (∀ (s : State) (n : RegNum), n = 0x3F ∨ (∀ r : Reg, r.number ≠ n) →
    hostRead n s = .fault (.accessRefused n .read))

/-- The model's choice, log entry 6: the only refusal is a host write of a value outside the domain of
the writable register it names, and every such write is refused. No command is ever refused. -/
def Obligations.OnlyIllFormedActionsAreRefused : Prop :=
  (∀ (a : HostAction) (s : State), (∃ r, perform a s = .refused r) ↔ a.wellFormed = false) ∧
  (∀ (i : Instr) (s : State) (r : Refusal), exec i s ≠ .refused r)

/-- 30_encoding.md R48: the pseudo-instructions SETCAL, SETCFG and SETBCD write their registers, and a
mnemonic alone runs its command. -/
def Obligations.PseudoInstructionsExpand : Prop :=
  (∀ (s : State) (m : CalendarMoment) (rest : List HostAction), s.program = setCal m ++ rest →
    core.run 8 s = .next { s with
      calMinute := some m.minute, calHour := some m.hour, calDay := some m.day, calMonth := some m.month,
      calYear := some m.year, calWeekday := some m.weekday, calDstActive := some m.dstActive,
      calDstChangePending := some m.dstChangePending, program := rest }) ∧
  (∀ (s : State) (c : EnvelopeConfig) (rest : List HostAction), s.program = setCfg c ++ rest →
    core.run 6 s = .next { s with
      cfgSampleRate := some c.sampleRate, cfgCarrierFrequency := some c.carrierFrequency,
      cfgReducedDuration0 := some c.reducedDuration0, cfgReducedDuration1 := some c.reducedDuration1,
      cfgLowAmplitude := some c.lowAmplitude, cfgHighAmplitude := some c.highAmplitude, program := rest }) ∧
  (∀ (s : State) (v : Int) (w : Nat) (rest : List HostAction), s.program = setBcd v w ++ rest →
    core.run 2 s = .next { s with bcdValue := some v, bcdWidth := some w, program := rest }) ∧
  (∀ (s : State) (i : Instr) (rest : List HostAction), s.program = cmdAction i :: rest →
    step s = exec i { s with program := rest })

/-! ### Invariants and runs -/

/-- The invariant holds after reset (70_reset_and_hazards.md R117, 10_state.md R28, R29). -/
def Obligations.ResetMeetsTheInvariant : Prop := State.reset.Inv

/-- 10_state.md R28, 30_encoding.md R63, 60_exceptions.md R100, 40_bcd_encoder.md R66, 42_envelope_modulator.md
R86, R88, R89: the ENV registers hold one whole envelope or none, STATUS is a record the error rules
allow, and BCD_OUT holds decimal digits; every step keeps this. -/
def Obligations.EveryStepKeepsTheInvariant : Prop :=
  ∀ s t : State, s.Inv → step s = .next t → t.Inv

/-- 70_reset_and_hazards.md R127, 20_memory.md R40: each step takes one action off the host's queue, only a
read adds to what the host was returned, the parameter stays, and a run that performs every action ends
where a further step changes nothing (the last clause is the model's choice, log entry 2). -/
def Obligations.RunEndsAfterTheLastAction : Prop :=
  (∀ (s t : State) (a : HostAction) (rest : List HostAction), s.program = a :: rest → step s = .next t →
    t.program = rest ∧ t.envCapacity = s.envCapacity ∧
    (t.returned = s.returned ∨ ∃ n v, a = .read n ∧ t.returned = s.returned ++ [⟨n, v⟩])) ∧
  (∀ s t : State, core.run s.program.length s = .next t → t.program = [] ∧ step t = .next t)

/-! ### Sample values and literals -/

/-- 42_envelope_modulator.md R85 to R87, for every `sinTurns`: the real value of sample `n`, of `60 · r`, is
the envelope value of its slot and offset times `sinTurns` of its phase. -/
def Obligations.SampleValueIsEnvelopeTimesCarrier : Prop :=
  ∀ (f : Frame) (c : EnvelopeConfig) (e : Envelope) (sinTurns : Config.SinTurns) (n : Nat),
    modulateFrame f c = .ok e → (n : Int) < 60 * c.sampleRate →
    ∃ x v, e.samples[n]? = some x ∧ f.slots[n / c.sampleRate.toNat]? = some v ∧
      x.value sinTurns =
        (((if ((n % c.sampleRate.toNat : Nat) : Int) < lowSamplesOf c v then c.lowAmplitude
           else c.highAmplitude : Rat) : Real)) *
        sinTurns (Int.fract (c.carrierFrequency * n / c.sampleRate))

/-- The model's choice, log entry 6: a rational literal whose denominator is 1 is an integer, so it is
stored in an integer register as that integer and written to CMD as that command word. -/
def Obligations.WholeRationalLiteralIsItsInteger : Prop :=
  (∀ (s : State) (v : Int),
    hostWrite 0x00 (.rat v) s = .next { s with calMinute := some v } ∧
    hostWrite 0x01 (.rat v) s = .next { s with calHour := some v } ∧
    hostWrite 0x02 (.rat v) s = .next { s with calDay := some v } ∧
    hostWrite 0x03 (.rat v) s = .next { s with calMonth := some v } ∧
    hostWrite 0x04 (.rat v) s = .next { s with calYear := some v } ∧
    hostWrite 0x05 (.rat v) s = .next { s with calWeekday := some v } ∧
    hostWrite 0x08 (.rat v) s = .next { s with bcdValue := some v } ∧
    hostWrite 0x10 (.rat v) s = .next { s with cfgSampleRate := some v }) ∧
  (∀ (s : State) (w : Nat), hostWrite 0x09 (.rat w) s = .next { s with bcdWidth := some w }) ∧
  (∀ (s : State) (c : CmdWord), hostWrite 0x3F (.rat c.toNat) s = hostWrite 0x3F (.int c.toNat) s)
end

