-- ==== Sys2Proof/Laws/State.lean ====
section
/-! SUPPORT. One lemma per field and state update, each true by rfl, so that no proof unfolds an update. -/

namespace Sys2Proof.Machine

/-! ### withStatus -/

@[simp] theorem withStatus_calMinute (s : State) (st : Status) : (State.withStatus st s).calMinute = s.calMinute := rfl
@[simp] theorem withStatus_calHour (s : State) (st : Status) : (State.withStatus st s).calHour = s.calHour := rfl
@[simp] theorem withStatus_calDay (s : State) (st : Status) : (State.withStatus st s).calDay = s.calDay := rfl
@[simp] theorem withStatus_calMonth (s : State) (st : Status) : (State.withStatus st s).calMonth = s.calMonth := rfl
@[simp] theorem withStatus_calYear (s : State) (st : Status) : (State.withStatus st s).calYear = s.calYear := rfl
@[simp] theorem withStatus_calWeekday (s : State) (st : Status) : (State.withStatus st s).calWeekday = s.calWeekday := rfl
@[simp] theorem withStatus_calDstActive (s : State) (st : Status) : (State.withStatus st s).calDstActive = s.calDstActive := rfl
@[simp] theorem withStatus_calDstChangePending (s : State) (st : Status) : (State.withStatus st s).calDstChangePending = s.calDstChangePending := rfl
@[simp] theorem withStatus_bcdValue (s : State) (st : Status) : (State.withStatus st s).bcdValue = s.bcdValue := rfl
@[simp] theorem withStatus_bcdWidth (s : State) (st : Status) : (State.withStatus st s).bcdWidth = s.bcdWidth := rfl
@[simp] theorem withStatus_cfgSampleRate (s : State) (st : Status) : (State.withStatus st s).cfgSampleRate = s.cfgSampleRate := rfl
@[simp] theorem withStatus_cfgCarrierFrequency (s : State) (st : Status) : (State.withStatus st s).cfgCarrierFrequency = s.cfgCarrierFrequency := rfl
@[simp] theorem withStatus_cfgReducedDuration0 (s : State) (st : Status) : (State.withStatus st s).cfgReducedDuration0 = s.cfgReducedDuration0 := rfl
@[simp] theorem withStatus_cfgReducedDuration1 (s : State) (st : Status) : (State.withStatus st s).cfgReducedDuration1 = s.cfgReducedDuration1 := rfl
@[simp] theorem withStatus_cfgLowAmplitude (s : State) (st : Status) : (State.withStatus st s).cfgLowAmplitude = s.cfgLowAmplitude := rfl
@[simp] theorem withStatus_cfgHighAmplitude (s : State) (st : Status) : (State.withStatus st s).cfgHighAmplitude = s.cfgHighAmplitude := rfl
@[simp] theorem withStatus_bcdOut (s : State) (st : Status) : (State.withStatus st s).bcdOut = s.bcdOut := rfl
@[simp] theorem withStatus_frame (s : State) (st : Status) : (State.withStatus st s).frame = s.frame := rfl
@[simp] theorem withStatus_envSamples (s : State) (st : Status) : (State.withStatus st s).envSamples = s.envSamples := rfl
@[simp] theorem withStatus_envSampleRate (s : State) (st : Status) : (State.withStatus st s).envSampleRate = s.envSampleRate := rfl
@[simp] theorem withStatus_envPeakScale (s : State) (st : Status) : (State.withStatus st s).envPeakScale = s.envPeakScale := rfl
@[simp] theorem withStatus_status (s : State) (st : Status) : (State.withStatus st s).status = st := rfl
@[simp] theorem withStatus_program (s : State) (st : Status) : (State.withStatus st s).program = s.program := rfl
@[simp] theorem withStatus_returned (s : State) (st : Status) : (State.withStatus st s).returned = s.returned := rfl
@[simp] theorem withStatus_envCapacity (s : State) (st : Status) : (State.withStatus st s).envCapacity = s.envCapacity := rfl

/-! ### withBcdOut -/

@[simp] theorem withBcdOut_calMinute (s : State) (b : Option Bits) : (State.withBcdOut b s).calMinute = s.calMinute := rfl
@[simp] theorem withBcdOut_calHour (s : State) (b : Option Bits) : (State.withBcdOut b s).calHour = s.calHour := rfl
@[simp] theorem withBcdOut_calDay (s : State) (b : Option Bits) : (State.withBcdOut b s).calDay = s.calDay := rfl
@[simp] theorem withBcdOut_calMonth (s : State) (b : Option Bits) : (State.withBcdOut b s).calMonth = s.calMonth := rfl
@[simp] theorem withBcdOut_calYear (s : State) (b : Option Bits) : (State.withBcdOut b s).calYear = s.calYear := rfl
@[simp] theorem withBcdOut_calWeekday (s : State) (b : Option Bits) : (State.withBcdOut b s).calWeekday = s.calWeekday := rfl
@[simp] theorem withBcdOut_calDstActive (s : State) (b : Option Bits) : (State.withBcdOut b s).calDstActive = s.calDstActive := rfl
@[simp] theorem withBcdOut_calDstChangePending (s : State) (b : Option Bits) : (State.withBcdOut b s).calDstChangePending = s.calDstChangePending := rfl
@[simp] theorem withBcdOut_bcdValue (s : State) (b : Option Bits) : (State.withBcdOut b s).bcdValue = s.bcdValue := rfl
@[simp] theorem withBcdOut_bcdWidth (s : State) (b : Option Bits) : (State.withBcdOut b s).bcdWidth = s.bcdWidth := rfl
@[simp] theorem withBcdOut_cfgSampleRate (s : State) (b : Option Bits) : (State.withBcdOut b s).cfgSampleRate = s.cfgSampleRate := rfl
@[simp] theorem withBcdOut_cfgCarrierFrequency (s : State) (b : Option Bits) : (State.withBcdOut b s).cfgCarrierFrequency = s.cfgCarrierFrequency := rfl
@[simp] theorem withBcdOut_cfgReducedDuration0 (s : State) (b : Option Bits) : (State.withBcdOut b s).cfgReducedDuration0 = s.cfgReducedDuration0 := rfl
@[simp] theorem withBcdOut_cfgReducedDuration1 (s : State) (b : Option Bits) : (State.withBcdOut b s).cfgReducedDuration1 = s.cfgReducedDuration1 := rfl
@[simp] theorem withBcdOut_cfgLowAmplitude (s : State) (b : Option Bits) : (State.withBcdOut b s).cfgLowAmplitude = s.cfgLowAmplitude := rfl
@[simp] theorem withBcdOut_cfgHighAmplitude (s : State) (b : Option Bits) : (State.withBcdOut b s).cfgHighAmplitude = s.cfgHighAmplitude := rfl
@[simp] theorem withBcdOut_bcdOut (s : State) (b : Option Bits) : (State.withBcdOut b s).bcdOut = b := rfl
@[simp] theorem withBcdOut_frame (s : State) (b : Option Bits) : (State.withBcdOut b s).frame = s.frame := rfl
@[simp] theorem withBcdOut_envSamples (s : State) (b : Option Bits) : (State.withBcdOut b s).envSamples = s.envSamples := rfl
@[simp] theorem withBcdOut_envSampleRate (s : State) (b : Option Bits) : (State.withBcdOut b s).envSampleRate = s.envSampleRate := rfl
@[simp] theorem withBcdOut_envPeakScale (s : State) (b : Option Bits) : (State.withBcdOut b s).envPeakScale = s.envPeakScale := rfl
@[simp] theorem withBcdOut_status (s : State) (b : Option Bits) : (State.withBcdOut b s).status = s.status := rfl
@[simp] theorem withBcdOut_program (s : State) (b : Option Bits) : (State.withBcdOut b s).program = s.program := rfl
@[simp] theorem withBcdOut_returned (s : State) (b : Option Bits) : (State.withBcdOut b s).returned = s.returned := rfl
@[simp] theorem withBcdOut_envCapacity (s : State) (b : Option Bits) : (State.withBcdOut b s).envCapacity = s.envCapacity := rfl

/-! ### withFrame -/

@[simp] theorem withFrame_calMinute (s : State) (f : Option Frame) : (State.withFrame f s).calMinute = s.calMinute := rfl
@[simp] theorem withFrame_calHour (s : State) (f : Option Frame) : (State.withFrame f s).calHour = s.calHour := rfl
@[simp] theorem withFrame_calDay (s : State) (f : Option Frame) : (State.withFrame f s).calDay = s.calDay := rfl
@[simp] theorem withFrame_calMonth (s : State) (f : Option Frame) : (State.withFrame f s).calMonth = s.calMonth := rfl
@[simp] theorem withFrame_calYear (s : State) (f : Option Frame) : (State.withFrame f s).calYear = s.calYear := rfl
@[simp] theorem withFrame_calWeekday (s : State) (f : Option Frame) : (State.withFrame f s).calWeekday = s.calWeekday := rfl
@[simp] theorem withFrame_calDstActive (s : State) (f : Option Frame) : (State.withFrame f s).calDstActive = s.calDstActive := rfl
@[simp] theorem withFrame_calDstChangePending (s : State) (f : Option Frame) : (State.withFrame f s).calDstChangePending = s.calDstChangePending := rfl
@[simp] theorem withFrame_bcdValue (s : State) (f : Option Frame) : (State.withFrame f s).bcdValue = s.bcdValue := rfl
@[simp] theorem withFrame_bcdWidth (s : State) (f : Option Frame) : (State.withFrame f s).bcdWidth = s.bcdWidth := rfl
@[simp] theorem withFrame_cfgSampleRate (s : State) (f : Option Frame) : (State.withFrame f s).cfgSampleRate = s.cfgSampleRate := rfl
@[simp] theorem withFrame_cfgCarrierFrequency (s : State) (f : Option Frame) : (State.withFrame f s).cfgCarrierFrequency = s.cfgCarrierFrequency := rfl
@[simp] theorem withFrame_cfgReducedDuration0 (s : State) (f : Option Frame) : (State.withFrame f s).cfgReducedDuration0 = s.cfgReducedDuration0 := rfl
@[simp] theorem withFrame_cfgReducedDuration1 (s : State) (f : Option Frame) : (State.withFrame f s).cfgReducedDuration1 = s.cfgReducedDuration1 := rfl
@[simp] theorem withFrame_cfgLowAmplitude (s : State) (f : Option Frame) : (State.withFrame f s).cfgLowAmplitude = s.cfgLowAmplitude := rfl
@[simp] theorem withFrame_cfgHighAmplitude (s : State) (f : Option Frame) : (State.withFrame f s).cfgHighAmplitude = s.cfgHighAmplitude := rfl
@[simp] theorem withFrame_bcdOut (s : State) (f : Option Frame) : (State.withFrame f s).bcdOut = s.bcdOut := rfl
@[simp] theorem withFrame_frame (s : State) (f : Option Frame) : (State.withFrame f s).frame = f := rfl
@[simp] theorem withFrame_envSamples (s : State) (f : Option Frame) : (State.withFrame f s).envSamples = s.envSamples := rfl
@[simp] theorem withFrame_envSampleRate (s : State) (f : Option Frame) : (State.withFrame f s).envSampleRate = s.envSampleRate := rfl
@[simp] theorem withFrame_envPeakScale (s : State) (f : Option Frame) : (State.withFrame f s).envPeakScale = s.envPeakScale := rfl
@[simp] theorem withFrame_status (s : State) (f : Option Frame) : (State.withFrame f s).status = s.status := rfl
@[simp] theorem withFrame_program (s : State) (f : Option Frame) : (State.withFrame f s).program = s.program := rfl
@[simp] theorem withFrame_returned (s : State) (f : Option Frame) : (State.withFrame f s).returned = s.returned := rfl
@[simp] theorem withFrame_envCapacity (s : State) (f : Option Frame) : (State.withFrame f s).envCapacity = s.envCapacity := rfl

/-! ### withEnvelope -/

@[simp] theorem withEnvelope_calMinute (s : State) (e : Option Envelope) : (State.withEnvelope e s).calMinute = s.calMinute := rfl
@[simp] theorem withEnvelope_calHour (s : State) (e : Option Envelope) : (State.withEnvelope e s).calHour = s.calHour := rfl
@[simp] theorem withEnvelope_calDay (s : State) (e : Option Envelope) : (State.withEnvelope e s).calDay = s.calDay := rfl
@[simp] theorem withEnvelope_calMonth (s : State) (e : Option Envelope) : (State.withEnvelope e s).calMonth = s.calMonth := rfl
@[simp] theorem withEnvelope_calYear (s : State) (e : Option Envelope) : (State.withEnvelope e s).calYear = s.calYear := rfl
@[simp] theorem withEnvelope_calWeekday (s : State) (e : Option Envelope) : (State.withEnvelope e s).calWeekday = s.calWeekday := rfl
@[simp] theorem withEnvelope_calDstActive (s : State) (e : Option Envelope) : (State.withEnvelope e s).calDstActive = s.calDstActive := rfl
@[simp] theorem withEnvelope_calDstChangePending (s : State) (e : Option Envelope) : (State.withEnvelope e s).calDstChangePending = s.calDstChangePending := rfl
@[simp] theorem withEnvelope_bcdValue (s : State) (e : Option Envelope) : (State.withEnvelope e s).bcdValue = s.bcdValue := rfl
@[simp] theorem withEnvelope_bcdWidth (s : State) (e : Option Envelope) : (State.withEnvelope e s).bcdWidth = s.bcdWidth := rfl
@[simp] theorem withEnvelope_cfgSampleRate (s : State) (e : Option Envelope) : (State.withEnvelope e s).cfgSampleRate = s.cfgSampleRate := rfl
@[simp] theorem withEnvelope_cfgCarrierFrequency (s : State) (e : Option Envelope) : (State.withEnvelope e s).cfgCarrierFrequency = s.cfgCarrierFrequency := rfl
@[simp] theorem withEnvelope_cfgReducedDuration0 (s : State) (e : Option Envelope) : (State.withEnvelope e s).cfgReducedDuration0 = s.cfgReducedDuration0 := rfl
@[simp] theorem withEnvelope_cfgReducedDuration1 (s : State) (e : Option Envelope) : (State.withEnvelope e s).cfgReducedDuration1 = s.cfgReducedDuration1 := rfl
@[simp] theorem withEnvelope_cfgLowAmplitude (s : State) (e : Option Envelope) : (State.withEnvelope e s).cfgLowAmplitude = s.cfgLowAmplitude := rfl
@[simp] theorem withEnvelope_cfgHighAmplitude (s : State) (e : Option Envelope) : (State.withEnvelope e s).cfgHighAmplitude = s.cfgHighAmplitude := rfl
@[simp] theorem withEnvelope_bcdOut (s : State) (e : Option Envelope) : (State.withEnvelope e s).bcdOut = s.bcdOut := rfl
@[simp] theorem withEnvelope_frame (s : State) (e : Option Envelope) : (State.withEnvelope e s).frame = s.frame := rfl
@[simp] theorem withEnvelope_envSamples (s : State) (e : Option Envelope) : (State.withEnvelope e s).envSamples = e.map (·.samples) := rfl
@[simp] theorem withEnvelope_envSampleRate (s : State) (e : Option Envelope) : (State.withEnvelope e s).envSampleRate = e.map (·.sampleRate) := rfl
@[simp] theorem withEnvelope_envPeakScale (s : State) (e : Option Envelope) : (State.withEnvelope e s).envPeakScale = e.map (·.peakScale) := rfl
@[simp] theorem withEnvelope_status (s : State) (e : Option Envelope) : (State.withEnvelope e s).status = s.status := rfl
@[simp] theorem withEnvelope_program (s : State) (e : Option Envelope) : (State.withEnvelope e s).program = s.program := rfl
@[simp] theorem withEnvelope_returned (s : State) (e : Option Envelope) : (State.withEnvelope e s).returned = s.returned := rfl
@[simp] theorem withEnvelope_envCapacity (s : State) (e : Option Envelope) : (State.withEnvelope e s).envCapacity = s.envCapacity := rfl

/-! ### recordRead -/

@[simp] theorem recordRead_calMinute (s : State) (n : RegNum) (v : ReadValue) : (State.recordRead n v s).calMinute = s.calMinute := rfl
@[simp] theorem recordRead_calHour (s : State) (n : RegNum) (v : ReadValue) : (State.recordRead n v s).calHour = s.calHour := rfl
@[simp] theorem recordRead_calDay (s : State) (n : RegNum) (v : ReadValue) : (State.recordRead n v s).calDay = s.calDay := rfl
@[simp] theorem recordRead_calMonth (s : State) (n : RegNum) (v : ReadValue) : (State.recordRead n v s).calMonth = s.calMonth := rfl
@[simp] theorem recordRead_calYear (s : State) (n : RegNum) (v : ReadValue) : (State.recordRead n v s).calYear = s.calYear := rfl
@[simp] theorem recordRead_calWeekday (s : State) (n : RegNum) (v : ReadValue) : (State.recordRead n v s).calWeekday = s.calWeekday := rfl
@[simp] theorem recordRead_calDstActive (s : State) (n : RegNum) (v : ReadValue) : (State.recordRead n v s).calDstActive = s.calDstActive := rfl
@[simp] theorem recordRead_calDstChangePending (s : State) (n : RegNum) (v : ReadValue) : (State.recordRead n v s).calDstChangePending = s.calDstChangePending := rfl
@[simp] theorem recordRead_bcdValue (s : State) (n : RegNum) (v : ReadValue) : (State.recordRead n v s).bcdValue = s.bcdValue := rfl
@[simp] theorem recordRead_bcdWidth (s : State) (n : RegNum) (v : ReadValue) : (State.recordRead n v s).bcdWidth = s.bcdWidth := rfl
@[simp] theorem recordRead_cfgSampleRate (s : State) (n : RegNum) (v : ReadValue) : (State.recordRead n v s).cfgSampleRate = s.cfgSampleRate := rfl
@[simp] theorem recordRead_cfgCarrierFrequency (s : State) (n : RegNum) (v : ReadValue) : (State.recordRead n v s).cfgCarrierFrequency = s.cfgCarrierFrequency := rfl
@[simp] theorem recordRead_cfgReducedDuration0 (s : State) (n : RegNum) (v : ReadValue) : (State.recordRead n v s).cfgReducedDuration0 = s.cfgReducedDuration0 := rfl
@[simp] theorem recordRead_cfgReducedDuration1 (s : State) (n : RegNum) (v : ReadValue) : (State.recordRead n v s).cfgReducedDuration1 = s.cfgReducedDuration1 := rfl
@[simp] theorem recordRead_cfgLowAmplitude (s : State) (n : RegNum) (v : ReadValue) : (State.recordRead n v s).cfgLowAmplitude = s.cfgLowAmplitude := rfl
@[simp] theorem recordRead_cfgHighAmplitude (s : State) (n : RegNum) (v : ReadValue) : (State.recordRead n v s).cfgHighAmplitude = s.cfgHighAmplitude := rfl
@[simp] theorem recordRead_bcdOut (s : State) (n : RegNum) (v : ReadValue) : (State.recordRead n v s).bcdOut = s.bcdOut := rfl
@[simp] theorem recordRead_frame (s : State) (n : RegNum) (v : ReadValue) : (State.recordRead n v s).frame = s.frame := rfl
@[simp] theorem recordRead_envSamples (s : State) (n : RegNum) (v : ReadValue) : (State.recordRead n v s).envSamples = s.envSamples := rfl
@[simp] theorem recordRead_envSampleRate (s : State) (n : RegNum) (v : ReadValue) : (State.recordRead n v s).envSampleRate = s.envSampleRate := rfl
@[simp] theorem recordRead_envPeakScale (s : State) (n : RegNum) (v : ReadValue) : (State.recordRead n v s).envPeakScale = s.envPeakScale := rfl
@[simp] theorem recordRead_status (s : State) (n : RegNum) (v : ReadValue) : (State.recordRead n v s).status = s.status := rfl
@[simp] theorem recordRead_program (s : State) (n : RegNum) (v : ReadValue) : (State.recordRead n v s).program = s.program := rfl
@[simp] theorem recordRead_returned (s : State) (n : RegNum) (v : ReadValue) : (State.recordRead n v s).returned = s.returned ++ [⟨n, v⟩] := rfl
@[simp] theorem recordRead_envCapacity (s : State) (n : RegNum) (v : ReadValue) : (State.recordRead n v s).envCapacity = s.envCapacity := rfl

/-! ### resetRegisters -/

@[simp] theorem resetRegisters_calMinute (s : State) : (State.resetRegisters s).calMinute = none := rfl
@[simp] theorem resetRegisters_calHour (s : State) : (State.resetRegisters s).calHour = none := rfl
@[simp] theorem resetRegisters_calDay (s : State) : (State.resetRegisters s).calDay = none := rfl
@[simp] theorem resetRegisters_calMonth (s : State) : (State.resetRegisters s).calMonth = none := rfl
@[simp] theorem resetRegisters_calYear (s : State) : (State.resetRegisters s).calYear = none := rfl
@[simp] theorem resetRegisters_calWeekday (s : State) : (State.resetRegisters s).calWeekday = none := rfl
@[simp] theorem resetRegisters_calDstActive (s : State) : (State.resetRegisters s).calDstActive = none := rfl
@[simp] theorem resetRegisters_calDstChangePending (s : State) : (State.resetRegisters s).calDstChangePending = none := rfl
@[simp] theorem resetRegisters_bcdValue (s : State) : (State.resetRegisters s).bcdValue = none := rfl
@[simp] theorem resetRegisters_bcdWidth (s : State) : (State.resetRegisters s).bcdWidth = none := rfl
@[simp] theorem resetRegisters_cfgSampleRate (s : State) : (State.resetRegisters s).cfgSampleRate = none := rfl
@[simp] theorem resetRegisters_cfgCarrierFrequency (s : State) : (State.resetRegisters s).cfgCarrierFrequency = none := rfl
@[simp] theorem resetRegisters_cfgReducedDuration0 (s : State) : (State.resetRegisters s).cfgReducedDuration0 = none := rfl
@[simp] theorem resetRegisters_cfgReducedDuration1 (s : State) : (State.resetRegisters s).cfgReducedDuration1 = none := rfl
@[simp] theorem resetRegisters_cfgLowAmplitude (s : State) : (State.resetRegisters s).cfgLowAmplitude = none := rfl
@[simp] theorem resetRegisters_cfgHighAmplitude (s : State) : (State.resetRegisters s).cfgHighAmplitude = none := rfl
@[simp] theorem resetRegisters_bcdOut (s : State) : (State.resetRegisters s).bcdOut = none := rfl
@[simp] theorem resetRegisters_frame (s : State) : (State.resetRegisters s).frame = none := rfl
@[simp] theorem resetRegisters_envSamples (s : State) : (State.resetRegisters s).envSamples = none := rfl
@[simp] theorem resetRegisters_envSampleRate (s : State) : (State.resetRegisters s).envSampleRate = none := rfl
@[simp] theorem resetRegisters_envPeakScale (s : State) : (State.resetRegisters s).envPeakScale = none := rfl
@[simp] theorem resetRegisters_status (s : State) : (State.resetRegisters s).status = Status.success := rfl
@[simp] theorem resetRegisters_program (s : State) : (State.resetRegisters s).program = s.program := rfl
@[simp] theorem resetRegisters_returned (s : State) : (State.resetRegisters s).returned = s.returned := rfl
@[simp] theorem resetRegisters_envCapacity (s : State) : (State.resetRegisters s).envCapacity = s.envCapacity := rfl

/-! ### withProgram -/

@[simp] theorem withProgram_calMinute (s : State) (p : List HostAction) : (State.withProgram s p).calMinute = s.calMinute := rfl
@[simp] theorem withProgram_calHour (s : State) (p : List HostAction) : (State.withProgram s p).calHour = s.calHour := rfl
@[simp] theorem withProgram_calDay (s : State) (p : List HostAction) : (State.withProgram s p).calDay = s.calDay := rfl
@[simp] theorem withProgram_calMonth (s : State) (p : List HostAction) : (State.withProgram s p).calMonth = s.calMonth := rfl
@[simp] theorem withProgram_calYear (s : State) (p : List HostAction) : (State.withProgram s p).calYear = s.calYear := rfl
@[simp] theorem withProgram_calWeekday (s : State) (p : List HostAction) : (State.withProgram s p).calWeekday = s.calWeekday := rfl
@[simp] theorem withProgram_calDstActive (s : State) (p : List HostAction) : (State.withProgram s p).calDstActive = s.calDstActive := rfl
@[simp] theorem withProgram_calDstChangePending (s : State) (p : List HostAction) : (State.withProgram s p).calDstChangePending = s.calDstChangePending := rfl
@[simp] theorem withProgram_bcdValue (s : State) (p : List HostAction) : (State.withProgram s p).bcdValue = s.bcdValue := rfl
@[simp] theorem withProgram_bcdWidth (s : State) (p : List HostAction) : (State.withProgram s p).bcdWidth = s.bcdWidth := rfl
@[simp] theorem withProgram_cfgSampleRate (s : State) (p : List HostAction) : (State.withProgram s p).cfgSampleRate = s.cfgSampleRate := rfl
@[simp] theorem withProgram_cfgCarrierFrequency (s : State) (p : List HostAction) : (State.withProgram s p).cfgCarrierFrequency = s.cfgCarrierFrequency := rfl
@[simp] theorem withProgram_cfgReducedDuration0 (s : State) (p : List HostAction) : (State.withProgram s p).cfgReducedDuration0 = s.cfgReducedDuration0 := rfl
@[simp] theorem withProgram_cfgReducedDuration1 (s : State) (p : List HostAction) : (State.withProgram s p).cfgReducedDuration1 = s.cfgReducedDuration1 := rfl
@[simp] theorem withProgram_cfgLowAmplitude (s : State) (p : List HostAction) : (State.withProgram s p).cfgLowAmplitude = s.cfgLowAmplitude := rfl
@[simp] theorem withProgram_cfgHighAmplitude (s : State) (p : List HostAction) : (State.withProgram s p).cfgHighAmplitude = s.cfgHighAmplitude := rfl
@[simp] theorem withProgram_bcdOut (s : State) (p : List HostAction) : (State.withProgram s p).bcdOut = s.bcdOut := rfl
@[simp] theorem withProgram_frame (s : State) (p : List HostAction) : (State.withProgram s p).frame = s.frame := rfl
@[simp] theorem withProgram_envSamples (s : State) (p : List HostAction) : (State.withProgram s p).envSamples = s.envSamples := rfl
@[simp] theorem withProgram_envSampleRate (s : State) (p : List HostAction) : (State.withProgram s p).envSampleRate = s.envSampleRate := rfl
@[simp] theorem withProgram_envPeakScale (s : State) (p : List HostAction) : (State.withProgram s p).envPeakScale = s.envPeakScale := rfl
@[simp] theorem withProgram_status (s : State) (p : List HostAction) : (State.withProgram s p).status = s.status := rfl
@[simp] theorem withProgram_program (s : State) (p : List HostAction) : (State.withProgram s p).program = p := rfl
@[simp] theorem withProgram_returned (s : State) (p : List HostAction) : (State.withProgram s p).returned = s.returned := rfl
@[simp] theorem withProgram_envCapacity (s : State) (p : List HostAction) : (State.withProgram s p).envCapacity = s.envCapacity := rfl

end Sys2Proof.Machine
end

