-- ==== Sys2Proof/Laws/Ops.lean ====
section
/-! SUPPORT. One lemma per shared operation: what raising an error writes, when an operand list is read,
and when the capacity check lets a command through. -/

namespace Sys2Proof.Machine

/-! ### Ending a command -/

@[simp] theorem succeed_eq (s : State) : s.succeed = { s with status := ⟨.none, 0, 0, 0⟩ } := rfl

@[simp] theorem raise_bcdOut (e : BlockError) (s : State) :
    s.raise e [.bcdOut] = { s with bcdOut := none, status := e.status } := rfl

@[simp] theorem raise_frame (e : BlockError) (s : State) :
    s.raise e [.frame] = { s with frame := none, status := e.status } := rfl

@[simp] theorem raise_envelope (e : BlockError) (s : State) :
    s.raise e [.envelope] =
      { s with envSamples := none, envSampleRate := none, envPeakScale := none, status := e.status } := rfl

@[simp] theorem raise_frame_envelope (e : BlockError) (s : State) :
    s.raise e [.frame, .envelope] =
      { s with frame := none, envSamples := none, envSampleRate := none, envPeakScale := none,
               status := e.status } := rfl

/-! ### Reading operands -/

@[simp] theorem operand_some {α : Type} (r : Reg) (x : α) : operand r (some x) = .ok x := rfl

@[simp] theorem operand_none {α : Type} (r : Reg) :
    operand r (none : Option α) = .error (.unwrittenRead r.number) := rfl

theorem operand_eq_ok_iff {α : Type} {r : Reg} {v : Option α} {x : α} : operand r v = .ok x ↔ v = some x := by
  cases v <;> simp

theorem ok_bind_eq {α β : Type} (x : α) (k : α → Except Fault β) : (Except.ok x >>= k) = k x := rfl

theorem error_bind_eq {α β : Type} (f : Fault) (k : α → Except Fault β) :
    ((Except.error f : Except Fault α) >>= k) = .error f := rfl

/-- Peel one operand off a list that was read. -/
theorem operand_bind_eq_ok_iff {α β : Type} {r : Reg} {v : Option α} {k : α → Except Fault β} {y : β} :
    (operand r v >>= k) = .ok y ↔ ∃ x, v = some x ∧ k x = .ok y := by
  cases v <;> simp [ok_bind_eq, error_bind_eq]

theorem bcdOperands_eq_ok_iff {s : State} {v : Int} {w : Nat} :
    s.bcdOperands = .ok (v, w) ↔ s.bcdValue = some v ∧ s.bcdWidth = some w := by
  simp only [State.bcdOperands, operand_bind_eq_ok_iff]
  constructor
  · rintro ⟨_, h1, _, h2, ⟨⟩⟩
    exact ⟨h1, h2⟩
  · rintro ⟨h1, h2⟩
    exact ⟨_, h1, _, h2, rfl⟩

theorem calendar_eq_ok_iff {s : State} {m : CalendarMoment} : s.calendar = .ok m ↔ s.HoldsCalendar m := by
  simp only [State.calendar, operand_bind_eq_ok_iff]
  constructor
  · rintro ⟨_, h1, _, h2, _, h3, _, h4, _, h5, _, h6, _, h7, _, h8, ⟨⟩⟩
    exact ⟨h1, h2, h3, h4, h5, h6, h7, h8⟩
  · rintro ⟨h1, h2, h3, h4, h5, h6, h7, h8⟩
    exact ⟨_, h1, _, h2, _, h3, _, h4, _, h5, _, h6, _, h7, _, h8, rfl⟩

theorem envelopeConfig_eq_ok_iff {s : State} {c : EnvelopeConfig} : s.envelopeConfig = .ok c ↔ s.HoldsConfig c := by
  simp only [State.envelopeConfig, operand_bind_eq_ok_iff]
  constructor
  · rintro ⟨_, h1, _, h2, _, h3, _, h4, _, h5, _, h6, ⟨⟩⟩
    exact ⟨h1, h2, h3, h4, h5, h6⟩
  · rintro ⟨h1, h2, h3, h4, h5, h6⟩
    exact ⟨_, h1, _, h2, _, h3, _, h4, _, h5, _, h6, rfl⟩

/-- A pair of operand lists is read when both are. -/
theorem bind_pair_eq_ok_iff {α β : Type} {x : Except Fault α} {y : Except Fault β} {a : α} {b : β} :
    (do let u ← x; let v ← y; return (u, v) : Except Fault (α × β)) = .ok (a, b) ↔ x = .ok a ∧ y = .ok b := by
  cases x <;> cases y <;> simp [bind, Except.bind, pure, Except.pure]

theorem modulateOperands_eq_ok_iff {s : State} {c : EnvelopeConfig} {f : Frame} :
    s.modulateOperands = .ok (c, f) ↔ s.HoldsConfig c ∧ s.frame = some f := by
  rw [State.modulateOperands, bind_pair_eq_ok_iff, envelopeConfig_eq_ok_iff, operand_eq_ok_iff]

theorem generateOperands_eq_ok_iff {s : State} {m : CalendarMoment} {c : EnvelopeConfig} :
    s.generateOperands = .ok (m, c) ↔ s.HoldsCalendar m ∧ s.HoldsConfig c := by
  rw [State.generateOperands, bind_pair_eq_ok_iff, calendar_eq_ok_iff, envelopeConfig_eq_ok_iff]

@[simp] theorem withOperands_ok {α : Type} (x : α) (run : α → Host.Outcome State Fault Refusal) :
    withOperands (.ok x) run = run x := rfl

@[simp] theorem withOperands_error {α : Type} (f : Fault) (run : α → Host.Outcome State Fault Refusal) :
    withOperands (.error f) run = .fault f := rfl

/-- A command that answers a next state has read its operands. -/
theorem withOperands_eq_next_iff {α : Type} {o : Except Fault α} {run : α → Host.Outcome State Fault Refusal}
    {t : State} : withOperands o run = .next t ↔ ∃ x, o = .ok x ∧ run x = .next t := by
  cases o <;> simp

/-! ### The capacity check -/

@[simp] theorem samplesOverCapacity_none (r : Int) : samplesOverCapacity none r = none := rfl

theorem samplesOverCapacity_eq_none_iff {cap : Option Nat} {r : Int} :
    samplesOverCapacity cap r = none ↔ ∀ c ∈ cap, 60 * r ≤ (c : Int) := by
  cases cap <;> simp [samplesOverCapacity]; omega

theorem samplesOverCapacity_eq_some_iff {cap : Option Nat} {r : Int} {n : Nat} :
    samplesOverCapacity cap r = some n ↔ ∃ c, cap = some c ∧ (c : Int) < 60 * r ∧ n = (60 * r).toNat := by
  cases cap <;> simp [samplesOverCapacity]; omega

end Sys2Proof.Machine
end

