-- ==== Sys2Proof/Laws/Bcd.lean ====
section
/-! SUPPORT. EncodeBCD against the spec's formula: when it answers, and with which bits. -/

namespace Sys2Proof.Machine

theorem bcdFits_iff {v : Int} {w : Nat} : bcdFits v w = true ↔ BcdEncodable v w := by
  simp only [bcdFits, Bool.and_eq_true, List.all_eq_true, List.mem_range, decide_eq_true_eq, and_assoc]
  rfl

/-- A bit of a digit, as the machine tests it and as the spec slices it. -/
theorem testBit_eq_decide_slice (d j : Nat) : d.testBit j = decide (d / 2 ^ j % 2 = 1) := by
  rw [Nat.testBit_eq_decide_div_mod_eq]

theorem encodeBcd_eq_some {v : Int} {w : Nat} (h : BcdEncodable v w) : encodeBcd v w = some (bcdBitsOf v w) := by
  simp [encodeBcd, bcdFits_iff.mpr h, bcdBitsOf, decimalDigit, testBit_eq_decide_slice]

theorem encodeBcd_eq_none {v : Int} {w : Nat} (h : ¬BcdEncodable v w) : encodeBcd v w = none := by
  have : bcdFits v w = false := by
    rw [← Bool.not_eq_true, bcdFits_iff]
    exact h
  simp [encodeBcd, this]

theorem encodeBcd_eq_some_iff {v : Int} {w : Nat} {b : Bits} :
    encodeBcd v w = some b ↔ BcdEncodable v w ∧ b = bcdBitsOf v w := by
  by_cases h : BcdEncodable v w
  · simp [encodeBcd_eq_some h, h, eq_comm]
  · simp [encodeBcd_eq_none h, h]

@[simp] theorem bcdBitsOf_length (v : Int) (w : Nat) : (bcdBitsOf v w).length = w := by simp [bcdBitsOf]

end Sys2Proof.Machine
end

