-- ==== Sys2Proof/Laws/Commands.lean ====
section
/-! SUPPORT. One inversion lemma per command and stage: everything it can do when it answers a next state. -/

namespace Sys2Proof.Machine

/-! ### The frame stage -/

theorem firstBadField_eq_none_iff {m : CalendarMoment} : firstBadField m = none ↔ m.InRange := by
  simp [firstBadField, fieldChecks, FieldCheck.fails]

/-- What the frame stage answers: a range error, a width error, or the frame of the slot map. -/
theorem buildFrame_cases (m : CalendarMoment) :
    (∃ c, firstBadField m = some c ∧ buildFrame m = .error (.fieldRange c.reg c.value)) ∨
    (m.InRange ∧ ∃ e, encodeFields m = .error e ∧ buildFrame m = .error e) ∨
    (m.InRange ∧ ∃ e, encodeFields m = .ok e ∧ buildFrame m = .ok (frameOfSlots (slotMap m e))) := by
  unfold buildFrame
  cases h : firstBadField m with
  | some c => exact .inl ⟨c, rfl, rfl⟩
  | none =>
    have hr := firstBadField_eq_none_iff.mp h
    cases he : encodeFields m with
    | error e => exact .inr (.inl ⟨hr, e, rfl, rfl⟩)
    | ok e => exact .inr (.inr ⟨hr, e, rfl, rfl⟩)

/-! ### The modulation stage -/

theorem configError_eq_none_iff {c : EnvelopeConfig} :
    configError c = none ↔ 0 < c.sampleRate ∧ 0 < c.carrierFrequency := by
  unfold configError
  split
  · simp; omega
  · split
    · simp; intro; assumption
    · simp; constructor <;> [omega; exact not_le.mp ‹_›]

theorem modulateFrame_eq_ok_iff {f : Frame} {c : EnvelopeConfig} {e : Envelope} :
    modulateFrame f c = .ok e ↔ 0 < c.sampleRate ∧ 0 < c.carrierFrequency ∧
      e = ⟨(List.range (60 * c.sampleRate.toNat)).map (sampleAt f c), c.sampleRate, peakScale c⟩ := by
  rw [← and_assoc, ← configError_eq_none_iff]
  unfold modulateFrame
  cases configError c <;> simp [eq_comm]

/-- The modulation stage writes the ENV registers and STATUS, and nothing else. -/
theorem modulationStage_eq (f : Frame) (c : EnvelopeConfig) (s : State) :
    ∃ e st, s.modulationStage f c = (s.withEnvelope e).withStatus st := by
  unfold State.modulationStage
  cases modulateFrame f c with
  | ok e => exact ⟨some e, _, rfl⟩
  | error e => exact ⟨none, _, rfl⟩

/-! ### The commands -/

/-- Everything ENCODE_BCD can do when it answers a next state. -/
theorem execEncodeBcd_eq_next {s t : State} (h : exec .encodeBcd s = .next t) :
    ∃ v w, s.bcdValue = some v ∧ s.bcdWidth = some w ∧
      ((∃ b, encodeBcd v w = some b ∧ t = (s.withBcdOut (some b)).succeed) ∨
       (encodeBcd v w = none ∧ t = s.raise (.encodingWidth .bcdValue v w) [.bcdOut])) := by
  obtain ⟨⟨v, w⟩, ho, hr⟩ := withOperands_eq_next_iff.mp h
  obtain ⟨hv, hw⟩ := bcdOperands_eq_ok_iff.mp ho
  refine ⟨v, w, hv, hw, ?_⟩
  dsimp only at hr
  cases he : encodeBcd v w with
  | some b => rw [he] at hr; cases hr; exact .inl ⟨b, rfl, rfl⟩
  | none => rw [he] at hr; cases hr; exact .inr ⟨rfl, rfl⟩

/-- Everything BUILD_FRAME can do when it answers a next state. -/
theorem execBuildFrame_eq_next {s t : State} (h : exec .buildFrame s = .next t) :
    ∃ m, s.HoldsCalendar m ∧
      ((∃ f, buildFrame m = .ok f ∧ t = (s.withFrame (some f)).succeed) ∨
       (∃ e, buildFrame m = .error e ∧ t = s.raise e [.frame])) := by
  obtain ⟨m, ho, hr⟩ := withOperands_eq_next_iff.mp h
  refine ⟨m, calendar_eq_ok_iff.mp ho, ?_⟩
  cases he : buildFrame m with
  | ok f => rw [he] at hr; cases hr; exact .inl ⟨f, rfl, rfl⟩
  | error e => rw [he] at hr; cases hr; exact .inr ⟨e, rfl, rfl⟩

/-- Everything MODULATE can do when it answers a next state. -/
theorem execModulate_eq_next {s t : State} (h : exec .modulate s = .next t) :
    ∃ c f, s.HoldsConfig c ∧ s.frame = some f ∧ s.Fits c.sampleRate ∧ t = s.modulationStage f c := by
  obtain ⟨⟨c, f⟩, ho, hr⟩ := withOperands_eq_next_iff.mp h
  obtain ⟨hc, hf⟩ := modulateOperands_eq_ok_iff.mp ho
  refine ⟨c, f, hc, hf, ?_⟩
  dsimp only at hr
  cases hs : samplesOverCapacity s.envCapacity c.sampleRate with
  | some n => rw [hs] at hr; cases hr
  | none => rw [hs] at hr; cases hr; exact ⟨samplesOverCapacity_eq_none_iff.mp hs, rfl⟩

/-- Everything GENERATE can do when it answers a next state. -/
theorem execGenerate_eq_next {s t : State} (h : exec .generate s = .next t) :
    ∃ m c, s.HoldsCalendar m ∧ s.HoldsConfig c ∧ s.Fits c.sampleRate ∧
      ((∃ f, buildFrame m = .ok f ∧ t = (s.withFrame (some f)).modulationStage f c) ∨
       (∃ e, buildFrame m = .error e ∧ t = s.raise e [.frame, .envelope])) := by
  obtain ⟨⟨m, c⟩, ho, hr⟩ := withOperands_eq_next_iff.mp h
  obtain ⟨hm, hc⟩ := generateOperands_eq_ok_iff.mp ho
  refine ⟨m, c, hm, hc, ?_⟩
  dsimp only at hr
  cases hs : samplesOverCapacity s.envCapacity c.sampleRate with
  | some n => rw [hs] at hr; cases hr
  | none =>
    refine ⟨samplesOverCapacity_eq_none_iff.mp hs, ?_⟩
    rw [hs] at hr
    dsimp only at hr
    cases he : buildFrame m with
    | ok f => rw [he] at hr; cases hr; exact .inl ⟨f, rfl, rfl⟩
    | error e => rw [he] at hr; cases hr; exact .inr ⟨e, rfl, rfl⟩

end Sys2Proof.Machine
end

