-- ==== Sys2Proof/Laws/HostAccess.lean ====
section
/-! SUPPORT. The host's accesses by register: a register number names its register, each access to it is
the access of that register, and what an action can do when it answers a next state. -/

namespace Sys2Proof

@[simp] theorem ofNumber?_number (r : Reg) : Reg.ofNumber? r.number = some r := by cases r <;> rfl

theorem ofNumber?_eq_some_iff {n : RegNum} {r : Reg} : Reg.ofNumber? n = some r ↔ r.number = n := by
  constructor
  · intro h
    have := List.find?_some h
    simpa using this
  · rintro rfl
    exact ofNumber?_number r

theorem ofNumber?_eq_none {n : RegNum} (h : ∀ r : Reg, r.number ≠ n) : Reg.ofNumber? n = none := by
  cases hr : Reg.ofNumber? n with
  | none => rfl
  | some r => exact absurd (ofNumber?_eq_some_iff.mp hr) (h r)

end Sys2Proof

namespace Sys2Proof.Machine

@[simp] theorem hostWrite_number (r : Reg) (x : HostValue) (s : State) :
    hostWrite r.number x s = writeRegister r x s := by simp [hostWrite]

@[simp] theorem hostRead_number (r : Reg) (s : State) :
    hostRead r.number s = withOperands (readRegister r s) fun v => .next (s.recordRead r.number v) := by
  simp [hostRead]

theorem store_eq_next_iff {α : Type} {r : Reg} {v : Option α} {put : α → State} {t : State} :
    store r v put = .next t ↔ ∃ x, v = some x ∧ put x = t := by
  cases v <;> simp [store]

/-- The write of a command word to CMD is the command's write, whatever the word. -/
theorem hostWrite_cmd_word (s : State) (c : CmdWord) : hostWrite 0x3F (.int c.toNat) s = writeCommand c s := by
  have hc : c.toNat < 256 := c.isLt
  refine (hostWrite_number .cmd _ s).trans ?_
  simp [writeRegister, HostValue.asCmdWord?, HostValue.asNat?, HostValue.asInt?, hc]

/-- A command word that decodes runs its command; another one is the fault. -/
theorem writeCommand_cases (c : CmdWord) (s : State) :
    (∃ i, decodeWord c = .ok i ∧ writeCommand c s = exec i s) ∨
    (∃ e, decodeWord c = .error e ∧ writeCommand c s = .fault (.reservedCommand c)) := by
  unfold writeCommand
  cases h : decodeWord c with
  | ok i => exact .inl ⟨i, rfl, rfl⟩
  | error e => exact .inr ⟨e, rfl, rfl⟩

/-- Everything a host read can do when it answers a next state. -/
theorem hostRead_eq_next {n : RegNum} {s t : State} (h : hostRead n s = .next t) :
    ∃ r v, r.number = n ∧ readRegister r s = .ok v ∧ t = s.recordRead n v := by
  unfold hostRead at h
  cases hr : Reg.ofNumber? n with
  | none => rw [hr] at h; cases h
  | some r =>
    rw [hr] at h
    obtain ⟨v, hv, ht⟩ := withOperands_eq_next_iff.mp h
    cases ht
    exact ⟨r, v, ofNumber?_eq_some_iff.mp hr, hv, rfl⟩

end Sys2Proof.Machine
end

