-- ==== Sys2Proof/Laws/PerInstr.lean ====
section
/-! SUPPORT. Statements made one command at a time. -/

/-- The opcode table has exactly one row for the command, it compares all eight bits, and its pattern is
the command's word (30_encoding.md R43, R44). -/
def Sys2Proof.Laws.OneRow.Statement (i : Sys2Proof.Instr) : Prop :=
  Sys2Proof.opcodeTable.filter (fun row => row.instr = i) = [⟨0xFF, Sys2Proof.encode i, i⟩] ∧
  Sys2Proof.Instr.wellFormed i = true

theorem Sys2Proof.Laws.OneRow.encodeBcd : Sys2Proof.Laws.OneRow.Statement .encodeBcd := by
  unfold Sys2Proof.Laws.OneRow.Statement; decide

theorem Sys2Proof.Laws.OneRow.buildFrame : Sys2Proof.Laws.OneRow.Statement .buildFrame := by
  unfold Sys2Proof.Laws.OneRow.Statement; decide

theorem Sys2Proof.Laws.OneRow.modulate : Sys2Proof.Laws.OneRow.Statement .modulate := by
  unfold Sys2Proof.Laws.OneRow.Statement; decide

theorem Sys2Proof.Laws.OneRow.generate : Sys2Proof.Laws.OneRow.Statement .generate := by
  unfold Sys2Proof.Laws.OneRow.Statement; decide
end

