-- ==== Sys2Proof/Laws/Step.lean ====
section
/-! SUPPORT. What a step can do, said once: the cases of an action that completes. -/

namespace Sys2Proof.Machine

theorem step_nil {s : State} (h : s.program = []) : step s = .next s := by simp [step, h]

theorem step_cons {s : State} {a : HostAction} {rest : List HostAction} (h : s.program = a :: rest) :
    step s = perform a { s with program := rest } := by simp [step, h]

/-- The value of an input register does not reach another register, STATUS, or what is no register. -/
structure State.OnlyInputChanges (s t : State) (r : Reg) : Prop where
  others : ∀ r', r' ≠ r → readRegister r' t = readRegister r' s
  bcdOut : t.bcdOut = s.bcdOut
  frame : t.frame = s.frame
  envelope : s.SameEnvelope t
  status : t.status = s.status
  program : t.program = s.program
  returned : t.returned = s.returned
  envCapacity : t.envCapacity = s.envCapacity

/-- A host write that completes: it runs a command, stores a frame, or stores an input register. -/
theorem writeRegister_eq_next {r : Reg} {x : HostValue} {s t : State} (h : writeRegister r x s = .next t) :
    (r = .cmd ∧ ∃ c i, HostValue.asCmdWord? x = some c ∧ decodeWord c = .ok i ∧ exec i s = .next t) ∨
    (r = .frame ∧ ∃ image f, HostValue.asImage? x = some image ∧ decodeFrame image = .ok f ∧
      t = s.withFrame (some f)) ∨
    (r ∈ inputRegs ∧ s.OnlyInputChanges t r) := by
  cases r
  case cmd =>
    simp only [writeRegister] at h
    cases hc : HostValue.asCmdWord? x with
    | none => rw [hc] at h; cases h
    | some c =>
      rw [hc] at h
      rcases writeCommand_cases c s with ⟨i, hi, he⟩ | ⟨e, _, he⟩ <;> dsimp only at h <;> rw [he] at h
      · exact .inl ⟨rfl, c, i, rfl, hi, h⟩
      · cases h
  case frame =>
    simp only [writeRegister] at h
    cases hx : HostValue.asImage? x with
    | none => rw [hx] at h; cases h
    | some image =>
      rw [hx] at h
      simp only [writeFrameImage] at h
      cases hd : decodeFrame image with
      | error e => rw [hd] at h; cases h
      | ok f => rw [hd] at h; cases h; exact .inr (.inl ⟨rfl, image, f, rfl, hd, rfl⟩)
  case bcdOut => cases h
  case envSamples => cases h
  case envSampleRate => cases h
  case envPeakScale => cases h
  case status => cases h
  all_goals
    simp only [writeRegister, store_eq_next_iff] at h
    obtain ⟨v, _, rfl⟩ := h
    refine .inr (.inr ⟨by simp [inputRegs], ?_, rfl, rfl, ⟨rfl, rfl, rfl⟩, rfl, rfl, rfl, rfl⟩)
    intro r' hr'
    cases r' <;> first | rfl | exact absurd rfl hr'

/-- An action that completes is one of five. -/
theorem perform_eq_next {a : HostAction} {s t : State} (h : perform a s = .next t) :
    (a = .reset ∧ t = s.resetRegisters) ∨
    (∃ n v, a = .read n ∧ t = s.recordRead n v) ∨
    (∃ x c i, a = .write 0x3F x ∧ HostValue.asCmdWord? x = some c ∧ decodeWord c = .ok i ∧
      exec i s = .next t) ∨
    (∃ f x, a = .write 0x21 x ∧ t = s.withFrame (some f)) ∨
    (∃ r x, r ∈ inputRegs ∧ a = .write r.number x ∧ s.OnlyInputChanges t r) := by
  cases a with
  | reset => cases h; exact .inl ⟨rfl, rfl⟩
  | read n =>
    obtain ⟨r, v, _, _, h3⟩ := hostRead_eq_next h
    exact .inr (.inl ⟨n, v, rfl, h3⟩)
  | write n x =>
    simp only [perform, hostWrite] at h
    cases hr : Reg.ofNumber? n with
    | none => rw [hr] at h; cases h
    | some r =>
      rw [hr] at h
      obtain rfl := ofNumber?_eq_some_iff.mp hr
      rcases writeRegister_eq_next h with ⟨rfl, c, i, hc, hi, he⟩ | ⟨rfl, _, f, _, _, he⟩ | ⟨hr', he⟩
      · exact .inr (.inr (.inl ⟨x, c, i, rfl, hc, hi, he⟩))
      · exact .inr (.inr (.inr (.inl ⟨f, x, rfl, he⟩)))
      · exact .inr (.inr (.inr (.inr ⟨r, x, hr', rfl, he⟩)))

end Sys2Proof.Machine
end

