-- ==== Sys2Proof/Tests/Slice0.lean ====
section
/-! SUPPORT. The model's own tests. Expected results come from the spec: the encodings of
30_encoding.md and the vectors of 95_test_vectors.md, named by their ids. The theorems called
`witness_…` show states that meet the hypotheses of the statement they name. -/

namespace Sys2Proof.Tests
open Sys2Proof.Machine

/-! ### Helpers -/

/-- A state with BCD operands. -/
def bcdState (v : Int) (w : Nat) : State := { State.reset with bcdValue := some v, bcdWidth := some w }

/-- A state with calendar operands. -/
def calState (m : CalendarMoment) : State :=
  { State.reset with
    calMinute := some m.minute, calHour := some m.hour, calDay := some m.day, calMonth := some m.month,
    calYear := some m.year, calWeekday := some m.weekday, calDstActive := some m.dstActive,
    calDstChangePending := some m.dstChangePending }

/-- A state with calendar and configuration operands and, perhaps, a frame. -/
def readyState (m : CalendarMoment) (c : EnvelopeConfig) (f : Option Frame) : State :=
  { calState m with
    cfgSampleRate := some c.sampleRate, cfgCarrierFrequency := some c.carrierFrequency,
    cfgReducedDuration0 := some c.reducedDuration0, cfgReducedDuration1 := some c.reducedDuration1,
    cfgLowAmplitude := some c.lowAmplitude, cfgHighAmplitude := some c.highAmplitude,
    bcdValue := some 59, bcdWidth := some 7, frame := f }

/-- The state after a step that completes, or the reset state. -/
def after (o : Host.Outcome State Fault Refusal) : State :=
  match o with
  | .next t => t
  | .fault _ => State.reset
  | .refused _ => State.reset

/-- Whether a step completes. -/
def completes (o : Host.Outcome State Fault Refusal) : Bool :=
  match o with
  | .next _ => true
  | .fault _ => false
  | .refused _ => false

/-- The fault of a step that faults. -/
def faultOf (o : Host.Outcome State Fault Refusal) : Option Fault :=
  match o with
  | .next _ => none
  | .fault f => some f
  | .refused _ => none

/-- The refusal of a step that is refused. -/
def refusalOf (o : Host.Outcome State Fault Refusal) : Option Refusal :=
  match o with
  | .next _ => none
  | .fault _ => none
  | .refused r => some r

theorem completes_eq {o : Host.Outcome State Fault Refusal} (h : completes o = true) : o = .next (after o) := by
  cases o <;> simp_all [completes, after]

/-- The moments of T-F1 and T-F2, at the lower and the upper bound of every field. -/
def momentOne : CalendarMoment := ⟨0, 0, 1, 1, 0, 1, false, false⟩
def momentTwo : CalendarMoment := ⟨59, 23, 31, 12, 99, 7, true, true⟩

/-- The frame of T-F1, from its bit image in 95_test_vectors.md section 3. -/
def imageOne : FrameImage := 0x900000041001000000011000000002
def frameOne : Option Frame := (decodeFrame imageOne).toOption

/-- The frame of T-F2, from its literal. -/
def frameTwo : Option Frame :=
  frameLiteral? "N0000000000000001100110011010110001110001111101001100110010N".toList

/-- The configuration of T-E2, and the one of T-E4, of one sample a second. -/
def configFour : EnvelopeConfig := ⟨4, 1, 1 / 4, 1 / 2, 0, 1⟩
def configOne : EnvelopeConfig := ⟨1, 1 / 4, 1 / 10, 1 / 5, 0, 1⟩

/-- All operands of all commands, at one sample a second. -/
def ready : State := readyState momentTwo configOne frameOne

/-! ### Well-formedness: a write outside the register's domain is refused (10_state.md R11) -/

theorem test_wf_boolean_to_integer : (HostAction.write 0x00 (.bool true)).wellFormed = false := by decide
theorem test_wf_fraction_to_integer : (HostAction.write 0x10 (.rat (1 / 2))).wellFormed = false := by decide +kernel
theorem test_wf_negative_to_natural : (HostAction.write 0x09 (.int (-1))).wellFormed = false := by decide
theorem test_wf_fraction_to_natural : (HostAction.write 0x09 (.rat (1 / 2))).wellFormed = false := by decide +kernel
theorem test_wf_boolean_to_rational : (HostAction.write 0x11 (.bool true)).wellFormed = false := by decide
theorem test_wf_integer_to_boolean : (HostAction.write 0x06 (.int 1)).wellFormed = false := by decide
theorem test_wf_integer_to_frame : (HostAction.write 0x21 (.int 0)).wellFormed = false := by decide
theorem test_wf_wide_command : (HostAction.write 0x3F (.int 256)).wellFormed = false := by decide
theorem test_wf_negative_command : (HostAction.write 0x3F (.int (-1))).wellFormed = false := by decide
theorem test_wf_accepts : (HostAction.write 0x14 (.int 0)).wellFormed = true ∧
    (HostAction.write 0x3F (.int 255)).wellFormed = true ∧ (HostAction.write 0x0A (.bool true)).wellFormed = true := by
  decide
theorem test_refusal_names_the_register :
    refusalOf (perform (.write 0x06 (.int 1)) ready) = some (.valueOutsideDomain 0x06) := by decide

/-! ### Decoding (30_encoding.md R44, R45) -/

theorem test_decode_encodeBcd : decode [0b00000001] = .ok (.encodeBcd, []) := by rfl
theorem test_decode_buildFrame : decode [0b00000010] = .ok (.buildFrame, []) := by rfl
theorem test_decode_modulate : decode [0b00000011] = .ok (.modulate, []) := by rfl
theorem test_decode_generate : decode [0b00000100, 0xFF] = .ok (.generate, [0xFF]) := by rfl
theorem test_decode_reserved : decodeWord 0x00 = .error (.reserved 0x00) ∧ decodeWord 0x05 = .error (.reserved 0x05) ∧
    decodeWord 0x81 = .error (.reserved 0x81) ∧ decodeWord 0xFF = .error (.reserved 0xFF) := ⟨rfl, rfl, rfl, rfl⟩
theorem test_opcode_rows_do_not_overlap :
    opcodeTable.Pairwise fun a b => a.pattern &&& b.mask ≠ b.pattern &&& a.mask := by decide
theorem test_table_words : decodeTableWord 8 1 = some .encodeBcd ∧ decodeTableWord 8 2 = some .buildFrame ∧
    decodeTableWord 8 3 = some .modulate ∧ decodeTableWord 8 4 = some .generate ∧ decodeTableWord 8 5 = none := by decide
theorem test_fetched_word_runs : (after (step (ready.withFetchWord 8 1))).bcdOut =
    some [true, false, false, true, true, false, true] := by decide +kernel
theorem test_fetched_word_after_reset :
    faultOf (step (State.reset.withFetchWord 8 4)) = some (.unwrittenRead 0x00) := by decide +kernel
theorem test_register_numbers : Reg.ofNumber? 0x15 = some .cfgHighAmplitude ∧ Reg.ofNumber? 0x16 = none ∧
    Reg.all.length = 23 ∧ (Reg.all.map Reg.number).Nodup := by decide

/-! ### The commands -/

/-- T-B2. -/
theorem test_encodeBcd_59 : (after (exec .encodeBcd (bcdState 59 7))).bcdOut =
    some [true, false, false, true, true, false, true] := by decide +kernel
/-- T-B25. -/
theorem test_encodeBcd_80 : (after (exec .encodeBcd (bcdState 80 7))).bcdOut = none ∧
    (after (exec .encodeBcd (bcdState 80 7))).status = ⟨.encodingWidth, 0x08, 80, 7⟩ := by decide +kernel
/-- T-F2. -/
theorem test_buildFrame_upper_bounds : (after (exec .buildFrame (calState momentTwo))).frame = frameTwo ∧
    frameTwo.isSome = true := by decide +kernel
/-- T-F31. -/
theorem test_buildFrame_first_bad_field :
    (after (exec .buildFrame (calState ⟨60, 24, 0, 13, 100, 0, false, false⟩))).status =
      ⟨.fieldRange, 0x00, 60, 0⟩ := by decide +kernel
/-- T-E2: 240 samples, 81 of them low. -/
theorem test_modulate_rate_4 :
    (after (exec .modulate (readyState momentTwo configFour frameTwo))).envSamples.map
      (fun xs => (xs.length, xs.countP fun x => x.env == 0)) = some (240, 81) := by decide +kernel
/-- T-E21: the rate is checked first. -/
theorem test_modulate_rate_error :
    (after (exec .modulate (readyState momentTwo ⟨-3, 0, 1 / 10, 1 / 5, 1 / 4, 1⟩ frameTwo))).status =
      ⟨.config, 0x10, -3, 0⟩ := by decide +kernel
/-- T-E3: GENERATE on T-F1 at rate 4; the envelope values sum to 176. -/
theorem test_generate_rate_4 :
    (after (exec .generate (readyState momentOne configFour none))).envSamples.map
      (fun xs => (xs.map (·.env)).sum) = some (176 : Rat) := by decide +kernel
/-- T-G4: the new frame stays when the configuration is bad. -/
theorem test_generate_keeps_frame :
    (after (exec .generate (readyState momentOne ⟨0, 5, 1 / 10, 1 / 5, 1 / 4, 1⟩ none))).frame = frameOne ∧
    frameOne.isSome = true := by decide +kernel

/-! ### Host accesses and faults -/

/-- T-H12. -/
theorem test_reserved_slot : faultOf (hostWrite 0x21 (.frame 0xC0) State.reset) = some (.reservedSlotCode 3) := by
  decide +kernel
/-- T-H5, T-H7, T-H8, T-H9. -/
theorem test_access_refused : faultOf (hostWrite 0x30 (.int 0) State.reset) = some (.accessRefused 0x30 .write) ∧
    faultOf (hostRead 0x3F State.reset) = some (.accessRefused 0x3F .read) ∧
    faultOf (hostWrite 0x0A (.int 1) State.reset) = some (.accessRefused 0x0A .write) ∧
    faultOf (hostRead 0x40 State.reset) = some (.accessRefused 0x40 .read) := by decide +kernel
/-- T-H11, first write. -/
theorem test_reserved_command : faultOf (hostWrite 0x3F (.int 5) State.reset) = some (.reservedCommand 0x05) := by
  decide +kernel
/-- T-E26. -/
theorem test_capacity : faultOf (exec .modulate { readyState momentTwo ⟨20, 5, 1 / 10, 1 / 5, 1 / 4, 1⟩ frameTwo with
    envCapacity := some 1000 }) = some (.capacityExceeded 1200) := by decide +kernel
/-- T-G6. -/
theorem test_unwritten_weekday : faultOf (exec .generate { ready with calWeekday := none }) =
    some (.unwrittenRead 0x05) := by decide +kernel
/-- P1, as text. -/
theorem test_program_text : hostProgram? "RESET ; reset\nSETBCD 59, 7\nENCODE_BCD\nCMD ENCODE_BCD\nRD BCD_OUT\nWR 0x11, -1/2" =
    some [.reset, .write 0x08 (.int 59), .write 0x09 (.int 7), .write 0x3F (.int 1), .write 0x3F (.int 1),
      .read 0x20, .write 0x11 (.rat (-1 / 2))] := by decide +kernel

/-- A frame literal is a value for any register, so that the access decides (T-H5's register, and FRAME). -/
theorem test_frame_literal_elsewhere :
    hostProgram? "WR STATUS, N0000000000000000010100000000000000010000010010000000000001N\nWR FRAME, true" =
      some [.write 0x30 (.frame imageOne), .write 0x21 (.bool true)] ∧
    faultOf (hostWrite 0x30 (.frame imageOne) State.reset) = some (.accessRefused 0x30 .write) := by decide +kernel
/-- T-E1's carrier and high amplitude, integers written to rational registers. -/
theorem test_integer_to_rational : (after (hostWrite 0x11 (.int 5) State.reset)).cfgCarrierFrequency = some 5 ∧
    (after (hostWrite 0x15 (.int 1) State.reset)).cfgHighAmplitude = some 1 := by decide +kernel

/-! ### Witnesses: the commands -/

theorem fits_unbounded {s : State} (h : s.envCapacity = none) (r : Int) : s.Fits r := by
  intro cap hc
  rw [h] at hc
  cases hc

theorem fits_sixty {s : State} (h : s.envCapacity = some 60) : s.Fits 1 := by
  intro cap hc
  rw [h] at hc
  cases hc
  decide

theorem ready_encodeBcd : exec .encodeBcd ready = .next (after (exec .encodeBcd ready)) := completes_eq (by decide +kernel)
theorem ready_buildFrame : exec .buildFrame ready = .next (after (exec .buildFrame ready)) := completes_eq (by decide +kernel)
theorem ready_modulate : exec .modulate ready = .next (after (exec .modulate ready)) := completes_eq (by decide +kernel)
theorem ready_generate : exec .generate ready = .next (after (exec .generate ready)) := completes_eq (by decide +kernel)

/-- A state whose next action writes a command word. -/
theorem witness_StepRunsTheDecodedCommand :
    (ready.withFetchWord 8 3).program = .write 0x3F (.int (0x03 : CmdWord).toNat) :: [] ∧
    decodeWord 0x03 = .ok .modulate ∧ State.reset.program = [] := ⟨rfl, rfl, rfl⟩

theorem witness_CommandWordsDecodeByTheOpcodeMap :
    ((0x00 : CmdWord) = 0x00 ∨ 5 ≤ (0x00 : CmdWord).toNat) ∧ ((0x05 : CmdWord) = 0x00 ∨ 5 ≤ (0x05 : CmdWord).toNat) ∧
    ((0xFF : CmdWord) = 0x00 ∨ 5 ≤ (0xFF : CmdWord).toNat) := by decide

theorem witness_ReservedCommandWordFaults : (0xFF : CmdWord) = 0x00 ∨ 5 ≤ (0xFF : CmdWord).toNat := by decide

theorem witness_DecodeAndEncodeAgree : decodeWord 0x01 = .ok .encodeBcd ∧ decodeWord 0x04 = .ok .generate := ⟨rfl, rfl⟩

theorem witness_ResetGivesEveryRegisterItsValue : Reg.calMinute ≠ .status ∧ Reg.cmd ≠ .status := by decide

theorem witness_ResetForgetsTheRegisters :
    perform .reset ready = .next State.reset ∧ perform .reset (bcdState 59 7) = .next State.reset ∧
    (bcdState 59 7).program = ready.program ∧ (bcdState 59 7).returned = ready.returned ∧
    (bcdState 59 7).envCapacity = ready.envCapacity := ⟨rfl, rfl, rfl, rfl, rfl⟩

/-- T-B5 and T-B20, the largest value of seven bits and the field of no bits. -/
theorem witness_EncodeBcdWritesTheField :
    ((bcdState 79 7).bcdValue = some 79 ∧ (bcdState 79 7).bcdWidth = some 7 ∧ BcdEncodable 79 7) ∧
    ((bcdState 0 0).bcdValue = some 0 ∧ (bcdState 0 0).bcdWidth = some 0 ∧ BcdEncodable 0 0) := by
  refine ⟨⟨rfl, rfl, ?_⟩, rfl, rfl, ?_⟩ <;> unfold BcdEncodable <;> decide

/-- T-B34, T-B26 and T-B25: the three failure cases. -/
theorem witness_EncodeBcdReportsTheWidthError :
    ((bcdState (-1) 7).bcdValue = some (-1) ∧ (bcdState (-1) 7).bcdWidth = some 7 ∧ ¬BcdEncodable (-1) 7) ∧
    ((bcdState 100 8).bcdValue = some 100 ∧ (bcdState 100 8).bcdWidth = some 8 ∧ ¬BcdEncodable 100 8) ∧
    ((bcdState 80 7).bcdValue = some 80 ∧ (bcdState 80 7).bcdWidth = some 7 ∧ ¬BcdEncodable 80 7) := by
  refine ⟨⟨rfl, rfl, ?_⟩, ⟨rfl, rfl, ?_⟩, rfl, rfl, ?_⟩ <;> unfold BcdEncodable <;> decide

theorem witness_EncodeBcdFailsInExactlyThreeCases :
    encodeBcd (-1) 7 = none ∧ encodeBcd 100 8 = none ∧ encodeBcd 80 7 = none := by decide

theorem witness_BcdResultDecodesToItsValue : encodeBcd 59 7 = some [true, false, false, true, true, false, true] := by
  decide

theorem witness_DecimalBitsEncodeBack :
    ∀ k < bcdGroups [true, false, false, true, true].length, bcdGroupValue [true, false, false, true, true] k ≤ 9 := by
  decide

theorem witness_BcdCornerCases :
    ((1 ≤ 1 ∧ 1 ≤ 4) ∧ (1 ≤ 4 ∧ 4 ≤ 4)) ∧ ((5 ≤ 5 ∧ 5 ≤ 8) ∧ (5 ≤ 8 ∧ 8 ≤ 8)) ∧ 8 < 9 ∧ 0 + 1 < bcdGroups 9 := by decide

/-- The lower and the upper bound of every field. -/
theorem witness_BuildFrameWritesTheFrame :
    ((calState momentOne).HoldsCalendar momentOne ∧ momentOne.InRange) ∧
    ((calState momentTwo).HoldsCalendar momentTwo ∧ momentTwo.InRange) := by decide

/-- A state with every operand and hour 24. -/
def badHour : CalendarMoment := ⟨0, 24, 1, 1, 0, 1, false, false⟩

/-- Every register that can be reported, one beyond its bound. -/
theorem witness_BuildFrameReportsTheFirstBadField :
    ((calState badHour).HoldsCalendar badHour ∧ badHour.FirstBad .calHour 24 ∧ ¬badHour.InRange) ∧
    CalendarMoment.FirstBad ⟨60, 24, 1, 1, 0, 1, false, false⟩ .calMinute 60 ∧
    CalendarMoment.FirstBad ⟨0, 23, 0, 0, 0, 1, false, false⟩ .calDay 0 ∧
    CalendarMoment.FirstBad ⟨0, 0, 31, 13, 0, 1, false, false⟩ .calMonth 13 ∧
    CalendarMoment.FirstBad ⟨0, 0, 1, 12, -1, 1, false, false⟩ .calYear (-1) ∧
    CalendarMoment.FirstBad ⟨0, 0, 1, 1, 99, 8, false, false⟩ .calWeekday 8 := by
  refine ⟨⟨by decide, ?_, by decide⟩, ?_, ?_, ?_, ?_, ?_⟩ <;> simp [CalendarMoment.FirstBad, badHour]

theorem witness_FailedBuildFrameLeavesNoFrame :
    exec .buildFrame (readyState badHour configOne frameOne) =
      .next (after (exec .buildFrame (readyState badHour configOne frameOne))) ∧
    (after (exec .buildFrame (readyState badHour configOne frameOne))).status.kind ≠ .none ∧
    (after (exec .buildFrame (readyState badHour configOne frameOne))).HoldsConfig configOne :=
  ⟨completes_eq (by decide +kernel), by decide +kernel, by decide +kernel⟩

theorem witness_NoFieldFailsAfterTheRangeCheck : momentTwo.InRange ∧ encodeBcd 80 7 = none := by decide

theorem buildFrame_two : (buildFrame momentTwo).toOption = frameTwo ∧ frameTwo.isSome = true := by decide +kernel

theorem witness_ParityIsEven : ∃ f, buildFrame momentTwo = .ok f := by
  cases h : buildFrame momentTwo with
  | ok f => exact ⟨f, rfl⟩
  | error e =>
    have h2 := buildFrame_two
    rw [h] at h2
    have h3 : frameTwo = none := h2.1.symm
    rw [h3] at h2
    cases h2.2

theorem witness_BuiltFrameMeetsTheFrameInvariant : ∃ f, buildFrame momentTwo = .ok f := witness_ParityIsEven

theorem witness_BuiltFrameDecodesToItsCalendar :
    ready.HoldsCalendar momentTwo ∧ exec .buildFrame ready = .next (after (exec .buildFrame ready)) ∧
    (after (exec .buildFrame ready)).status.kind = .none := ⟨by decide, ready_buildFrame, by decide +kernel⟩

/-- At the capacity boundary: 60 samples in a buffer of 60. -/
theorem witness_ModulateWritesTheEnvelope :
    ∃ f, ready.HoldsConfig configOne ∧ State.HoldsConfig { ready with envCapacity := some 60 } configOne ∧
      { ready with envCapacity := some 60 }.frame = some f ∧
      0 < configOne.sampleRate ∧ 0 < configOne.carrierFrequency ∧ ready.Fits 1 ∧
      State.Fits { ready with envCapacity := some 60 } 1 := by
  have h : frameOne.isSome = true := by decide +kernel
  obtain ⟨f, hf⟩ := Option.isSome_iff_exists.mp h
  exact ⟨f, by decide +kernel, by decide +kernel, hf, by decide, by decide +kernel, fits_unbounded rfl 1, fits_sixty rfl⟩

theorem witness_ModulateReportsTheConfigError :
    (∃ f, (readyState momentTwo ⟨0, 0, 0, 0, 0, 1⟩ frameOne).frame = some f) ∧
    (readyState momentTwo ⟨0, 0, 0, 0, 0, 1⟩ frameOne).HoldsConfig ⟨0, 0, 0, 0, 0, 1⟩ ∧
    (readyState momentTwo ⟨1, 0, 0, 0, 0, 1⟩ frameOne).HoldsConfig ⟨1, 0, 0, 0, 0, 1⟩ ∧
    (readyState momentTwo ⟨1, 0, 0, 0, 0, 1⟩ frameOne).Fits 1 ∧ (0 : Int) ≤ 0 ∧ (0 : Rat) ≤ 0 := by
  refine ⟨Option.isSome_iff_exists.mp (by decide +kernel), by decide +kernel, by decide +kernel, ?_, by decide, by decide⟩
  exact fits_unbounded rfl 1

/-- T-E6: the four kinds of duration at a positive rate. -/
theorem witness_LowSegmentCount :
    (0 : Int) < 7 ∧ ((0 : Rat) ≤ 0 ∧ (0 : Rat) ≤ 1) ∧ ((0 : Rat) ≤ 1 ∧ (1 : Rat) ≤ 1) ∧ (-1 / 2 : Rat) < 0 ∧
    (1 : Rat) < 3 / 2 := by norm_num

/-- Every frame and every valid configuration has an envelope. -/
theorem modulate_one (f : Frame) (c : EnvelopeConfig) (h1 : 0 < c.sampleRate) (h2 : 0 < c.carrierFrequency) :
    ∃ e, modulateFrame f c = .ok e := ⟨_, modulateFrame_eq_ok_iff.mpr ⟨h1, h2, rfl⟩⟩

/-- A frame, with a bit slot and a no-pulse slot. -/
def plainFrame : Frame := ⟨.noPulse :: List.replicate 59 .bit0, by decide⟩

theorem witness_LowSamplesComeFirst :
    (∃ e, modulateFrame plainFrame configFour = .ok e) ∧ configFour.lowAmplitude ≠ configFour.highAmplitude ∧
    plainFrame.slots[1]? = some .bit0 ∧ plainFrame.slots[59]? = some .bit0 ∧ ((3 : Nat) : Int) < configFour.sampleRate ∧
    (0 ≤ configFour.reducedDuration0 ∧ configFour.reducedDuration0 ≤ 1) ∧
    (0 ≤ configFour.reducedDuration1 ∧ configFour.reducedDuration1 ≤ 1) ∧
    (∃ e, modulateFrame plainFrame ⟨1, 1, 0, 0, 1, 1⟩ = .ok e ∧ e.samples ≠ []) := by
  refine ⟨modulate_one _ _ (by decide) (by decide +kernel), by decide +kernel, by decide, by decide, by decide,
    by decide +kernel, by decide +kernel, _, modulateFrame_eq_ok_iff.mpr ⟨by decide, by decide +kernel, rfl⟩, by simp⟩

theorem witness_EnvelopeLength : (∃ e, modulateFrame plainFrame configOne = .ok e) ∧ 59 < 60 :=
  ⟨modulate_one _ _ (by decide) (by decide +kernel), by decide⟩

/-- Two frames that differ in slot 1 and agree in slot 59. -/
def otherFrame : Frame := ⟨.noPulse :: .bit1 :: List.replicate 58 .bit0, by decide⟩

theorem witness_SecondsDependOnTheirSlotAlone :
    (∃ e, modulateFrame plainFrame configOne = .ok e) ∧ (∃ e, modulateFrame otherFrame configOne = .ok e) ∧
    plainFrame.slots[59]? = otherFrame.slots[59]? ∧ plainFrame ≠ otherFrame :=
  ⟨modulate_one _ _ (by decide) (by decide +kernel), modulate_one _ _ (by decide) (by decide +kernel), by decide, by decide⟩

/-- Two frames with one rate and carrier, and the first two samples. -/
theorem witness_CarrierPhaseIsContinuous :
    (∃ e, modulateFrame plainFrame configOne = .ok e ∧ (∃ x, e.samples[0]? = some x) ∧ ∃ y, e.samples[0 + 1]? = some y) ∧
    (∃ e', modulateFrame ⟨List.replicate 60 .bit1, by decide⟩ { configOne with lowAmplitude := 1 / 2 } = .ok e') ∧
    { configOne with lowAmplitude := 1 / 2 }.sampleRate = configOne.sampleRate ∧
    { configOne with lowAmplitude := 1 / 2 }.carrierFrequency = configOne.carrierFrequency := by
  refine ⟨⟨_, modulateFrame_eq_ok_iff.mpr ⟨by decide, by decide +kernel, rfl⟩, ⟨sampleAt plainFrame configOne 0, ?_⟩,
    sampleAt plainFrame configOne 1, ?_⟩, modulate_one _ _ (by decide) (by decide +kernel), rfl, rfl⟩ <;>
    simp [configOne]

theorem witness_PeakScaleBoundsEverySample :
    (∃ e, modulateFrame plainFrame ⟨1, 1, 0, 0, 0, 0⟩ = .ok e ∧ e.samples ≠ []) ∧
    Config.SinTurns.Bounded (fun _ => 1) :=
  ⟨⟨_, modulateFrame_eq_ok_iff.mpr ⟨by decide, by decide +kernel, rfl⟩, by simp⟩, fun _ => by simp⟩

/-- The first and the last sample. -/
theorem witness_SampleValueIsEnvelopeTimesCarrier :
    (∃ e, modulateFrame plainFrame configFour = .ok e) ∧ ((0 : Nat) : Int) < 60 * configFour.sampleRate ∧
    ((239 : Nat) : Int) < 60 * configFour.sampleRate :=
  ⟨modulate_one _ _ (by decide) (by decide +kernel), by decide, by decide⟩

/-- T-E5: the carrier is twice the rate. -/
theorem witness_CarrierAtTheRateIsSilent :
    (∃ e, modulateFrame plainFrame ⟨4, 8, 1 / 4, 1 / 2, 0, 1⟩ = .ok e ∧ e.samples ≠ []) ∧
    (8 : Rat) = ((2 : Int) : Rat) * ((4 : Int) : Rat) ∧
    Config.SinTurns.QuarterExact (fun x => if x = 1 / 4 then 1 else if x = 3 / 4 then -1 else 0) := by
  refine ⟨⟨_, modulateFrame_eq_ok_iff.mpr ⟨by decide, by decide +kernel, rfl⟩, by simp⟩, by norm_num, ?_⟩
  unfold Config.SinTurns.QuarterExact
  norm_num

theorem witness_ReferenceSineHasBothProperties :
    Config.SinTurns.IsReference (fun x => Real.sin (2 * Real.pi * (x : Real))) := fun _ => rfl

theorem witness_PhaseJoinsTheNextMinute : 0 < configOne.sampleRate := by decide

/-- 60 samples in a buffer of 59, and an unbounded buffer. -/
theorem witness_CapacityExceededFaults :
    ∃ f, { ready with envCapacity := some 59 }.HoldsCalendar momentTwo ∧
      { ready with envCapacity := some 59 }.HoldsConfig configOne ∧
      { ready with envCapacity := some 59 }.frame = some f ∧ ((59 : Nat) : Int) < 60 * configOne.sampleRate ∧
      ready.envCapacity = none := by
  have h : frameOne.isSome = true := by decide +kernel
  obtain ⟨f, hf⟩ := Option.isSome_iff_exists.mp h
  exact ⟨f, by decide, by decide +kernel, hf, by decide, rfl⟩

theorem witness_GenerateWritesFrameAndEnvelope :
    ready.HoldsCalendar momentTwo ∧ ready.HoldsConfig configOne ∧ momentTwo.InRange ∧ 0 < configOne.sampleRate ∧
    0 < configOne.carrierFrequency ∧ ready.Fits configOne.sampleRate :=
  ⟨by decide, by decide +kernel, by decide, by decide, by decide +kernel,
    fits_unbounded rfl _⟩

theorem witness_GenerateReportsItsErrors :
    ((readyState badHour configOne none).HoldsCalendar badHour ∧ (readyState badHour configOne none).HoldsConfig configOne ∧
      badHour.FirstBad .calHour 24) ∧
    (readyState momentTwo ⟨0, 1, 0, 0, 0, 1⟩ none).HoldsConfig ⟨0, 1, 0, 0, 0, 1⟩ ∧
    (readyState momentTwo ⟨1, 0, 0, 0, 0, 1⟩ none).HoldsConfig ⟨1, 0, 0, 0, 0, 1⟩ ∧
    (readyState momentTwo ⟨1, 0, 0, 0, 0, 1⟩ none).HoldsCalendar momentTwo ∧ momentTwo.InRange ∧
    (readyState momentTwo ⟨1, 0, 0, 0, 0, 1⟩ none).Fits 1 := by
  refine ⟨⟨by decide, by decide +kernel, ?_⟩, by decide +kernel, by decide +kernel, by decide, by decide, ?_⟩
  · simp [CalendarMoment.FirstBad, badHour]
  · exact fits_unbounded rfl 1

theorem witness_GenerateIsBuildFrameThenModulate :
    exec .buildFrame ready = .next (after (exec .buildFrame ready)) ∧
    (after (exec .buildFrame ready)).status.kind = .none := ⟨ready_buildFrame, by decide +kernel⟩

/-! ### Witnesses: rules over all commands -/

/-- T-B40, T-F33, T-E24 and T-G5, and a read after reset. -/
theorem witness_UnwrittenReadFaults :
    (operandRegs .encodeBcd).find? (fun r => !{ State.reset with bcdValue := some 5 }.holdsValue r) = some .bcdWidth ∧
    (operandRegs .buildFrame).find? (fun r => !{ ready with calDstActive := none }.holdsValue r) = some .calDstActive ∧
    (operandRegs .modulate).find? (fun r => !{ ready with frame := none }.holdsValue r) = some .frame ∧
    (operandRegs .generate).find? (fun r => !(calState momentOne).holdsValue r) = some .cfgSampleRate ∧
    Reg.frame ≠ .cmd ∧ State.reset.holdsValue .frame = false := by decide +kernel

theorem witness_CommandsCompleteExactlyWhenReady :
    (∀ r ∈ operandRegs .generate, ready.holdsValue r = true) ∧ ready.cfgSampleRate = some 1 ∧ ready.Fits 1 :=
  ⟨by decide +kernel, rfl, fits_unbounded rfl _⟩

/-- Every command completes in `ready`. -/
theorem witness_CommandsChangeOnlyTheirResults : ∀ i : Instr, ∃ t, exec i ready = .next t := by
  intro i
  cases i
  · exact ⟨_, ready_encodeBcd⟩
  · exact ⟨_, ready_buildFrame⟩
  · exact ⟨_, ready_modulate⟩
  · exact ⟨_, ready_generate⟩

theorem witness_CommandsAreDeterministic :
    (bcdState 59 7).envCapacity = ready.envCapacity ∧
    (∀ r ∈ operandRegs .encodeBcd, readRegister r (bcdState 59 7) = readRegister r ready) ∧
    (∃ t, exec .encodeBcd ready = .next t) ∧ (∃ f, exec .generate State.reset = .fault f) := by
  refine ⟨rfl, ?_, ⟨_, ready_encodeBcd⟩, _, rfl⟩
  intro r hr
  simp only [operandRegs, List.mem_cons, List.not_mem_nil, or_false] at hr
  rcases hr with rfl | rfl <;> rfl

theorem witness_RepeatedCommandChangesNothing : ∀ i : Instr, ∃ t, exec i ready = .next t :=
  witness_CommandsChangeOnlyTheirResults

/-- A state with one pending action. -/
def pending (a : HostAction) (s : State) : State := { s with program := [a] }

theorem step_pending (a : HostAction) (s : State) : step (pending a s) = perform a { s with program := [] } := rfl

theorem witness_StatusDescribesTheLastCommand :
    (pending (.write 0x3F (.int 1)) (bcdState 80 7)).program = .write 0x3F (.int 1) :: [] ∧
    step (pending (.write 0x3F (.int 1)) (bcdState 80 7)) =
      .next (after (step (pending (.write 0x3F (.int 1)) (bcdState 80 7)))) ∧
    (after (step (pending (.write 0x3F (.int 1)) (bcdState 80 7)))).status ≠
      (pending (.write 0x3F (.int 1)) (bcdState 80 7)).status ∧
    HostAction.Issues (.write 0x3F (.int 1)) .encodeBcd :=
  ⟨rfl, completes_eq (by decide +kernel), by decide +kernel, _, rfl, rfl⟩

/-- Each result group changes: by a command, by a host write of FRAME, and by reset. -/
theorem witness_ResultRegistersChangeOnlyByTheirWriters :
    (step (pending (.write 0x3F (.int 1)) ready) = .next (after (step (pending (.write 0x3F (.int 1)) ready))) ∧
      (after (step (pending (.write 0x3F (.int 1)) ready))).bcdOut ≠ (pending (.write 0x3F (.int 1)) ready).bcdOut) ∧
    (step (pending (.write 0x21 (.frame 0)) ready) = .next (after (step (pending (.write 0x21 (.frame 0)) ready))) ∧
      (after (step (pending (.write 0x21 (.frame 0)) ready))).frame ≠ (pending (.write 0x21 (.frame 0)) ready).frame) ∧
    (step (pending (.write 0x3F (.int 3)) ready) = .next (after (step (pending (.write 0x3F (.int 3)) ready))) ∧
      ¬(pending (.write 0x3F (.int 3)) ready).SameEnvelope (after (step (pending (.write 0x3F (.int 3)) ready)))) := by
  refine ⟨⟨completes_eq (by decide +kernel), by decide +kernel⟩, ⟨completes_eq (by decide +kernel), by decide +kernel⟩,
    completes_eq (by decide +kernel), ?_⟩
  have h : (after (step (pending (.write 0x3F (.int 3)) ready))).envSampleRate = some 1 := by decide +kernel
  rintro ⟨_, h2, _⟩
  rw [h] at h2
  cases h2

theorem witness_InputRegistersKeepTheirValues :
    (∃ t, exec .encodeBcd ready = .next t) ∧
    (pending (.write 0x00 (.int 5)) ready).program = .write 0x00 (.int 5) :: [] ∧
    (∃ t, step (pending (.write 0x00 (.int 5)) ready) = .next t ∧
      readRegister .calMinute t ≠ readRegister .calMinute (pending (.write 0x00 (.int 5)) ready)) ∧
    Reg.calMinute ∈ inputRegs := by
  refine ⟨⟨_, ready_encodeBcd⟩, rfl, ⟨_, rfl, ?_⟩, by decide⟩
  intro h
  cases h

/-! ### Witnesses: host accesses, the invariant and runs -/

theorem unassigned_0A : ∀ r : Reg, r.number ≠ 0x0A := by intro r; cases r <;> decide

theorem witness_HostWriteStoresOrIsRefusedAccess : ∀ r : Reg, r.number ≠ 0x0A := unassigned_0A

/-- The image of zeros has no reserved code; a one in bits 119 and 118 is one, in slot 59. -/
theorem witness_HostWriteOfFrame :
    (∀ i < 60, slotCodeAt 0 i ≠ 0b11) ∧
    (slotCodeAt 0xC00000000000000000000000000000 59 = 0b11 ∧
      ∀ j < 59, slotCodeAt 0xC00000000000000000000000000000 j ≠ 0b11) ∧
    slotCodeAt 0x3 0 = 0b11 := by decide +kernel

theorem witness_FrameImageRoundTrip : ∃ f, decodeFrame imageOne = .ok f := by
  have h : frameOne.isSome = true := by decide +kernel
  unfold frameOne at h
  cases hd : decodeFrame imageOne with
  | ok f => exact ⟨f, rfl⟩
  | error e => rw [hd] at h; cases h

/-- A state in which every register holds a value. -/
def full : State :=
  { ready with bcdOut := some [], envSamples := some [], envSampleRate := some 1, envPeakScale := some 1 }

theorem witness_HostReadReturnsTheValue :
    (∀ r : Reg, r ≠ .cmd → full.holdsValue r = true) ∧ (Reg.frame ≠ .cmd ∧ State.reset.holdsValue .frame = false) ∧
    ∀ r : Reg, r.number ≠ 0x0A := by
  refine ⟨?_, by decide, unassigned_0A⟩
  intro r
  cases r <;> decide +kernel

theorem witness_OnlyIllFormedActionsAreRefused :
    (HostAction.write 0x06 (.int 1)).wellFormed = false ∧ (HostAction.write 0x06 (.bool true)).wellFormed = true := by decide

theorem witness_PseudoInstructionsExpand :
    (ready.withProgram (setCal momentTwo ++ [.reset])).program = setCal momentTwo ++ [.reset] ∧
    (ready.withProgram (setCfg configOne ++ [])).program = setCfg configOne ++ [] ∧
    (ready.withProgram (setBcd 59 7 ++ [])).program = setBcd 59 7 ++ [] ∧
    (ready.withProgram [cmdAction .generate]).program = cmdAction .generate :: [] := ⟨rfl, rfl, rfl, rfl⟩

/-- A state that meets the invariant with an error in STATUS and a field in BCD_OUT, and its step. -/
theorem witness_EveryStepKeepsTheInvariant :
    State.Inv { ready with bcdOut := some [true, false, false, true], status := ⟨.config, 0x10, 0, 0⟩ } ∧
    ∃ t, step { ready with bcdOut := some [true, false, false, true], status := ⟨.config, 0x10, 0, 0⟩ } = .next t := by
  refine ⟨⟨trivial, ⟨.inl rfl, le_refl _, rfl⟩, ?_⟩, _, rfl⟩
  intro b hb k
  cases hb
  by_cases hk : k < 1
  · interval_cases k; decide
  · have : bcdGroupWidth 4 k = 0 := by unfold bcdGroupWidth; omega
    simp [bcdGroupValue, this]

theorem witness_RunEndsAfterTheLastAction :
    (pending .reset ready).program = .reset :: [] ∧ (∃ t, step (pending .reset ready) = .next t) ∧
    (∃ t, core.run (pending .reset ready).program.length (pending .reset ready) = .next t) :=
  ⟨rfl, ⟨_, rfl⟩, _, rfl⟩

end Sys2Proof.Tests
end

section
/-! Commands are deterministic (20_memory.md R42): a command sees no more of the state than its
operand registers and the capacity, so two runs that agree on those end alike. -/

namespace Sys2Proof.Machine

/-! ### Equal reads give equal operands -/

/-- Reads of one register are equal exactly when its contents are, `⊥` included. -/
theorem operand_map_eq_iff {α : Type} {r : Reg} {c : α → ReadValue} (hc : ∀ x y, c x = c y → x = y)
    {v v' : Option α} : (operand r v').map c = (operand r v).map c ↔ v' = v := by
  have hinj : ∀ x y, c x = c y ↔ x = y := fun x y => ⟨hc x y, congrArg c⟩
  cases v <;> cases v' <;> simp [Except.map, hinj]

theorem bcdOperands_eq_of_reads {s s' : State}
    (h : ∀ r ∈ setBcdRegs, readRegister r s' = readRegister r s) : s'.bcdOperands = s.bcdOperands := by
  simp only [setBcdRegs, List.forall_mem_cons, readRegister, operand_map_eq_iff, ReadValue.int.injEq, ReadValue.nat.injEq,
    imp_self, implies_true] at h
  simp only [State.bcdOperands, h]

theorem calendar_eq_of_reads {s s' : State}
    (h : ∀ r ∈ setCalRegs, readRegister r s' = readRegister r s) : s'.calendar = s.calendar := by
  simp only [setCalRegs, List.forall_mem_cons, readRegister, operand_map_eq_iff, ReadValue.int.injEq, ReadValue.bool.injEq,
    imp_self, implies_true] at h
  simp only [State.calendar, h]

theorem envelopeConfig_eq_of_reads {s s' : State}
    (h : ∀ r ∈ setCfgRegs, readRegister r s' = readRegister r s) : s'.envelopeConfig = s.envelopeConfig := by
  simp only [setCfgRegs, List.forall_mem_cons, readRegister, operand_map_eq_iff, ReadValue.int.injEq, ReadValue.rat.injEq,
    imp_self, implies_true] at h
  simp only [State.envelopeConfig, h]

theorem modulateOperands_eq_of_reads {s s' : State}
    (h : ∀ r ∈ operandRegs .modulate, readRegister r s' = readRegister r s) :
    s'.modulateOperands = s.modulateOperands := by
  obtain ⟨hcfg, hframe⟩ := List.forall_mem_append.mp (show ∀ r ∈ setCfgRegs ++ [.frame], _ from h)
  have hf : s'.frame = s.frame := by simpa [readRegister, operand_map_eq_iff] using hframe
  simp only [State.modulateOperands, envelopeConfig_eq_of_reads hcfg, hf]

theorem generateOperands_eq_of_reads {s s' : State}
    (h : ∀ r ∈ operandRegs .generate, readRegister r s' = readRegister r s) :
    s'.generateOperands = s.generateOperands := by
  obtain ⟨hcal, hcfg⟩ := List.forall_mem_append.mp (show ∀ r ∈ setCalRegs ++ setCfgRegs, _ from h)
  simp only [State.generateOperands, calendar_eq_of_reads hcal, envelopeConfig_eq_of_reads hcfg]

/-! ### Two runs that end alike -/

/-- Two runs of command `i` end alike: both complete with equal STATUS and result registers, or both meet
the same fault. -/
inductive EndsAlike (i : Instr) :
    Host.Outcome State Fault Refusal → Host.Outcome State Fault Refusal → Prop where
  | next {t t' : State} (status : t'.status = t.status)
      (results : ∀ r ∈ resultRegs i, readRegister r t' = readRegister r t) : EndsAlike i (.next t) (.next t')
  | fault (f : Fault) : EndsAlike i (.fault f) (.fault f)

theorem withOperands_endsAlike {i : Instr} {α : Type} {o o' : Except Fault α}
    {run run' : α → Host.Outcome State Fault Refusal} (ho : o' = o) (hrun : ∀ x, EndsAlike i (run x) (run' x)) :
    EndsAlike i (withOperands o run) (withOperands o' run') := by
  subst ho
  cases o' with
  | ok x => exact hrun x
  | error f => exact .fault f

theorem EndsAlike.exists_next {i : Instr} {t : State} {o : Host.Outcome State Fault Refusal}
    (h : EndsAlike i (.next t) o) : ∃ t', o = .next t' ∧ t'.status = t.status ∧
      ∀ r ∈ resultRegs i, readRegister r t' = readRegister r t := by
  cases h with
  | next hstatus hresults => exact ⟨_, rfl, hstatus, hresults⟩

theorem EndsAlike.eq_fault {i : Instr} {f : Fault} {o : Host.Outcome State Fault Refusal}
    (h : EndsAlike i (.fault f) o) : o = .fault f := by
  cases h
  rfl

/-! ### The commands -/

/-- What the modulation stage writes depends on the frame and the configuration alone. -/
theorem modulationStage_uniform (f : Frame) (c : EnvelopeConfig) :
    ∃ e st, ∀ s : State, s.modulationStage f c = (s.withEnvelope e).withStatus st := by
  unfold State.modulationStage
  cases modulateFrame f c with
  | ok e => exact ⟨some e, _, fun _ => rfl⟩
  | error e => exact ⟨none, _, fun _ => rfl⟩

section
variable {s s' : State}

theorem encodeBcd_endsAlike (h : ∀ r ∈ operandRegs .encodeBcd, readRegister r s' = readRegister r s) :
    EndsAlike .encodeBcd (exec .encodeBcd s) (exec .encodeBcd s') := by
  refine withOperands_endsAlike (bcdOperands_eq_of_reads h) fun (v, w) => ?_
  dsimp only
  cases encodeBcd v w with
  | some b => exact .next rfl (by simp [resultRegs, readRegister])
  | none => exact .next rfl (by simp [resultRegs, readRegister])

theorem buildFrame_endsAlike (h : ∀ r ∈ operandRegs .buildFrame, readRegister r s' = readRegister r s) :
    EndsAlike .buildFrame (exec .buildFrame s) (exec .buildFrame s') := by
  refine withOperands_endsAlike (calendar_eq_of_reads h) fun m => ?_
  cases buildFrame m with
  | ok f => exact .next rfl (by simp [resultRegs, readRegister])
  | error e => exact .next rfl (by simp [resultRegs, readRegister])

theorem modulate_endsAlike (hcap : s'.envCapacity = s.envCapacity)
    (h : ∀ r ∈ operandRegs .modulate, readRegister r s' = readRegister r s) :
    EndsAlike .modulate (exec .modulate s) (exec .modulate s') := by
  refine withOperands_endsAlike (modulateOperands_eq_of_reads h) fun (c, f) => ?_
  rw [hcap]
  dsimp only
  cases samplesOverCapacity s.envCapacity c.sampleRate with
  | some n => exact .fault _
  | none =>
    obtain ⟨e, st, hstage⟩ := modulationStage_uniform f c
    simp only [hstage]
    exact .next rfl (by simp [resultRegs, readRegister])

theorem generate_endsAlike (hcap : s'.envCapacity = s.envCapacity)
    (h : ∀ r ∈ operandRegs .generate, readRegister r s' = readRegister r s) :
    EndsAlike .generate (exec .generate s) (exec .generate s') := by
  refine withOperands_endsAlike (generateOperands_eq_of_reads h) fun (m, c) => ?_
  rw [hcap]
  dsimp only
  cases samplesOverCapacity s.envCapacity c.sampleRate with
  | some n => exact .fault _
  | none =>
    cases buildFrame m with
    | error e => exact .next rfl (by simp [resultRegs, readRegister])
    | ok f =>
      obtain ⟨e, st, hstage⟩ := modulationStage_uniform f c
      simp only [hstage]
      exact .next rfl (by simp [resultRegs, readRegister])

/-- A command's ending is a function of its operands and the capacity (20_memory.md R42). -/
theorem exec_endsAlike (i : Instr) (hcap : s'.envCapacity = s.envCapacity)
    (h : ∀ r ∈ operandRegs i, readRegister r s' = readRegister r s) :
    EndsAlike i (exec i s) (exec i s') := by
  cases i with
  | encodeBcd => exact encodeBcd_endsAlike h
  | buildFrame => exact buildFrame_endsAlike h
  | modulate => exact modulate_endsAlike hcap h
  | generate => exact generate_endsAlike hcap h

end

/-- Settles O38: each command runs on equal operands with one capacity, and every branch after the operand
reads writes values made from those alone. -/
theorem commandsAreDeterministic : Obligations.CommandsAreDeterministic := by
  intro i s s' hcap hreads
  have halike := exec_endsAlike i hcap hreads
  constructor
  · intro t ht
    rw [ht] at halike
    exact halike.exists_next
  · intro f hf
    rw [hf] at halike
    exact halike.eq_fault

end Sys2Proof.Machine
end

section
/-! When EncodeBCD fails (40_bcd_encoder.md R65): its failure is the negation of encodability, taken
apart into the three cases. -/

namespace Sys2Proof.Machine

theorem encodeBcd_eq_none_iff {v : Int} {w : Nat} : encodeBcd v w = none ↔ ¬BcdEncodable v w := by
  constructor
  · intro hnone hfits
    rw [encodeBcd_eq_some hfits] at hnone
    cases hnone
  · exact encodeBcd_eq_none

/-- A value is not encodable exactly by its sign, by its number of digits, or by a digit too wide for
its group (40_bcd_encoder.md R65 (a), (b), (c)). -/
theorem not_bcdEncodable_iff {v : Int} {w : Nat} : ¬BcdEncodable v w ↔
    v < 0 ∨ 10 ^ ((w + 3) / 4) ≤ v ∨
    ∃ k < (w + 3) / 4, 2 ^ min 4 (w - 4 * k) ≤ v.toNat / 10 ^ k % 10 := by
  simp only [BcdEncodable, not_and_or, not_forall, not_le, not_lt, exists_prop]

/-- Settles O9: EncodeBCD fails exactly on the values that are not encodable, and those are R65's three
cases. -/
theorem encodeBcdFailsInExactlyThreeCases : Obligations.EncodeBcdFailsInExactlyThreeCases := by
  intro v w
  exact encodeBcd_eq_none_iff.trans not_bcdEncodable_iff

end Sys2Proof.Machine
end

section
/-! The error ends of BUILD_FRAME (41_frame_builder.md R73, R80, R81): which field is reported, what the
command leaves behind, and what a MODULATE makes of it. -/

namespace Sys2Proof.Machine

/-! ### The first field outside its range -/

theorem fails_iff {c : FieldCheck} : c.fails = true ↔ ¬(c.low ≤ c.value ∧ c.value ≤ c.high) := by
  rw [FieldCheck.fails, decide_eq_true_iff, not_and_or, not_le, not_le]

/-- The range check steps over a field that is in range and stops at one that is not (R71 step 1). -/
theorem find?_fails_cons (c : FieldCheck) (cs : List FieldCheck) :
    (c :: cs).find? FieldCheck.fails =
      if c.low ≤ c.value ∧ c.value ≤ c.high then cs.find? FieldCheck.fails else some c := by
  split
  next hrange => exact List.find?_cons_of_neg fun hfails => fails_iff.mp hfails hrange
  next hbad => exact List.find?_cons_of_pos (fails_iff.mpr hbad)

/-- The check of the six fields stops where R73 says: the fields before `reg` pass, and `reg` fails. -/
theorem firstBadField_of_firstBad {m : CalendarMoment} {reg : Reg} {x : Int} (h : m.FirstBad reg x) :
    ∃ c, firstBadField m = some c ∧ c.reg = reg ∧ c.value = x := by
  simp only [firstBadField, fieldChecks, find?_fails_cons]
  cases reg with
  | calMinute =>
    obtain ⟨rfl, hbad⟩ := h
    exact ⟨_, if_neg hbad, rfl, rfl⟩
  | calHour =>
    obtain ⟨rfl, hbad, hminute⟩ := h
    exact ⟨_, by rw [if_pos hminute, if_neg hbad], rfl, rfl⟩
  | calDay =>
    obtain ⟨rfl, hbad, hminute, hhour⟩ := h
    exact ⟨_, by rw [if_pos hminute, if_pos hhour, if_neg hbad], rfl, rfl⟩
  | calMonth =>
    obtain ⟨rfl, hbad, hminute, hhour, hday⟩ := h
    exact ⟨_, by rw [if_pos hminute, if_pos hhour, if_pos hday, if_neg hbad], rfl, rfl⟩
  | calYear =>
    obtain ⟨rfl, hbad, hminute, hhour, hday, hmonth⟩ := h
    exact ⟨_, by rw [if_pos hminute, if_pos hhour, if_pos hday, if_pos hmonth, if_neg hbad], rfl, rfl⟩
  | calWeekday =>
    obtain ⟨rfl, hbad, hminute, hhour, hday, hmonth, hyear⟩ := h
    exact ⟨_, by rw [if_pos hminute, if_pos hhour, if_pos hday, if_pos hmonth, if_pos hyear, if_neg hbad],
      rfl, rfl⟩
  | _ => exact h.elim

theorem exists_firstBad {m : CalendarMoment} (h : ¬m.InRange) : ∃ reg x, m.FirstBad reg x := by
  by_cases hminute : 0 ≤ m.minute ∧ m.minute ≤ 59
  case neg => exact ⟨.calMinute, _, rfl, hminute⟩
  by_cases hhour : 0 ≤ m.hour ∧ m.hour ≤ 23
  case neg => exact ⟨.calHour, _, rfl, hhour, hminute⟩
  by_cases hday : 1 ≤ m.day ∧ m.day ≤ 31
  case neg => exact ⟨.calDay, _, rfl, hday, hminute, hhour⟩
  by_cases hmonth : 1 ≤ m.month ∧ m.month ≤ 12
  case neg => exact ⟨.calMonth, _, rfl, hmonth, hminute, hhour, hday⟩
  by_cases hyear : 0 ≤ m.year ∧ m.year ≤ 99
  case neg => exact ⟨.calYear, _, rfl, hyear, hminute, hhour, hday, hmonth⟩
  by_cases hweekday : 1 ≤ m.weekday ∧ m.weekday ≤ 7
  case neg => exact ⟨.calWeekday, _, rfl, hweekday, hminute, hhour, hday, hmonth, hyear⟩
  exact absurd ⟨hminute, hhour, hday, hmonth, hyear, hweekday⟩ h

theorem buildFrame_of_firstBad {m : CalendarMoment} {reg : Reg} {x : Int} (h : m.FirstBad reg x) :
    buildFrame m = .error (.fieldRange reg x) := by
  obtain ⟨c, hc, rfl, rfl⟩ := firstBadField_of_firstBad h
  simp [buildFrame, hc]

/-! ### What the command leaves behind -/

theorem exec_buildFrame_of_error {s : State} {m : CalendarMoment} {e : BlockError} (hs : s.HoldsCalendar m)
    (he : buildFrame m = .error e) : exec .buildFrame s = .next (s.raise e [.frame]) := by
  simp [exec, execBuildFrame, calendar_eq_ok_iff.mpr hs, he]

/-- The check order of MODULATE puts FRAME after the configuration (60_exceptions.md R105). -/
theorem exec_modulate_of_frame_none {s : State} {c : EnvelopeConfig} (hc : s.HoldsConfig c)
    (hf : s.frame = none) : exec .modulate s = .fault (.unwrittenRead (Reg.number .frame)) := by
  have hoperands : s.modulateOperands = .error (.unwrittenRead (Reg.number .frame)) := by
    rw [State.modulateOperands, envelopeConfig_eq_ok_iff.mpr hc, hf]
    rfl
  simp [exec, execModulate, hoperands]

/-- Settles O14: the range check stops at the first bad field, and its error is what the command reports. -/
theorem buildFrameReportsTheFirstBadField : Obligations.BuildFrameReportsTheFirstBadField := by
  refine ⟨fun s m reg x hs hbad => ?_, fun m => exists_firstBad⟩
  rw [exec_buildFrame_of_error hs (buildFrame_of_firstBad hbad), raise_frame]
  rfl

/-- Settles O15: a BUILD_FRAME that ends without an error reports NONE, and one that ends in an error
leaves FRAME empty, the last operand a MODULATE reads. -/
theorem failedBuildFrameLeavesNoFrame : Obligations.FailedBuildFrameLeavesNoFrame := by
  intro s t hrun hkind
  obtain ⟨m, -, ⟨f, -, rfl⟩ | ⟨e, -, rfl⟩⟩ := execBuildFrame_eq_next hrun
  · exact absurd rfl hkind
  · exact ⟨rfl, fun c hc => exec_modulate_of_frame_none hc rfl⟩

end Sys2Proof.Machine
end

section
/-! Even parity (41_frame_builder.md R74): the parity of a sequence, and the parity slots of a built frame
against the slots they stand for (30_encoding.md R52, R60). -/

namespace Sys2Proof.Machine

/-! ### The parity of a bit sequence -/

theorem evenParity_eq_true_iff {b : Bits} : evenParity b = true ↔ popcount b % 2 = 1 := by
  simp [evenParity]

theorem evenParity_cons (x : Bool) (b : Bits) : evenParity (x :: b) = (x ^^ evenParity b) := by
  rw [Bool.eq_iff_iff, evenParity_eq_true_iff]
  cases x with
  | false => simp [evenParity, popcount]
  | true => simp [evenParity, popcount]; omega

/-- The xor of a sequence, from any start: the start matters as one more element. -/
theorem foldl_xor_eq (b : Bits) (a : Bool) : b.foldl xor a = (a ^^ evenParity b) := by
  induction b generalizing a with
  | nil => simp [evenParity, popcount]
  | cons x b ih => rw [List.foldl_cons, ih, evenParity_cons, Bool.xor_assoc]

theorem count_true_append_evenParity (b : Bits) : (b ++ [evenParity b]).count true % 2 = 0 := by
  have hodd := evenParity_eq_true_iff (b := b)
  rw [popcount] at hodd
  cases hp : evenParity b <;> simp [hp] at hodd ⊢ <;> omega

theorem slotOfBit_evenParity (b : Bits) : slotOfBit (evenParity b) = paritySlotOf b := by
  simp [slotOfBit, paritySlotOf, evenParity_eq_true_iff, popcount]

/-! ### The fields of a built frame -/

/-- The fields of a moment at their fixed widths, by the spec's formula (30_encoding.md R50). -/
def encodedFieldsOf (m : CalendarMoment) : EncodedFields :=
  ⟨bcdBitsOf m.minute 7, bcdBitsOf m.hour 6, dateBitsOf m⟩

@[simp] theorem dateBitsOf_length (m : CalendarMoment) : (dateBitsOf m).length = 22 := by simp [dateBitsOf]

/-- Peel one field off an encoding that succeeded. -/
theorem encodeField_bind_eq_ok {α : Type} {reg : Reg} {v : Int} {w : Nat}
    {k : Bits → Except BlockError α} {y : α} (h : (encodeField reg v w >>= k) = .ok y) :
    k (bcdBitsOf v w) = .ok y := by
  unfold encodeField at h
  cases hb : encodeBcd v w with
  | none => rw [hb] at h; cases h
  | some b =>
    rw [hb] at h
    obtain ⟨-, rfl⟩ := encodeBcd_eq_some_iff.mp hb
    exact h

theorem encodeFields_eq_ok {m : CalendarMoment} {e : EncodedFields} (h : encodeFields m = .ok e) :
    e = encodedFieldsOf m := by
  have hfields := encodeField_bind_eq_ok <| encodeField_bind_eq_ok <| encodeField_bind_eq_ok <|
    encodeField_bind_eq_ok <| encodeField_bind_eq_ok <| encodeField_bind_eq_ok h
  cases hfields
  rfl

/-- Whenever the frame stage answers a frame, it is the slot map on the fields of the moment. -/
theorem buildFrame_eq_ok {m : CalendarMoment} {f : Frame} (h : buildFrame m = .ok f) :
    f = frameOfSlots (slotMap m (encodedFieldsOf m)) := by
  obtain ⟨c, -, hb⟩ | ⟨-, e, -, hb⟩ | ⟨-, e, he, hb⟩ := buildFrame_cases m <;> rw [hb] at h <;> cases h
  rw [encodeFields_eq_ok he]

/-! ### The parity slots of a built frame -/

@[simp] theorem slotOfBit_eq_bit1_iff {x : Bool} : slotOfBit x = .bit1 ↔ x = true := by
  cases x <;> simp [slotOfBit]

theorem slots_frameOfSlots_getElem? (g : Nat → SlotValue) {i : Nat} (hi : i < 60) :
    (frameOfSlots g).slots[i]? = some (g i) := by
  simp [frameOfSlots, hi]

section
variable {g : Nat → SlotValue} {b : Bits} {first width : Nat}

/-- Slots that hold the elements of a bit sequence give the sequence back. -/
theorem bitsAt_frameOfSlots (hb : b.length = width) (hfit : first + width ≤ 60)
    (hslots : ∀ i < width, g (first + i) = slotOfElement b i) :
    Frame.bitsAt (frameOfSlots g) first width = b := by
  subst hb
  refine List.ext_getElem? fun i => ?_
  by_cases hi : i < b.length
  · have hlast : first + i < 60 := by omega
    simp [Frame.bitsAt, hi, slots_frameOfSlots_getElem? g hlast, hslots i hi, slotOfElement]
  · simp [Frame.bitsAt, frameOfSlots, hi]

/-- A slot that holds the parity of the field laid out just before it is the parity slot of those slots. -/
theorem slot_after_field_is_its_parity (hb : b.length = width) (hfit : first + width < 60)
    (hslots : ∀ i < width, g (first + i) = slotOfElement b i)
    (hparity : g (first + width) = slotOfBit (evenParity b)) :
    (frameOfSlots g).slots[first + width]? = some (paritySlotOf (Frame.bitsAt (frameOfSlots g) first width)) := by
  rw [slots_frameOfSlots_getElem? g hfit, hparity, slotOfBit_evenParity, bitsAt_frameOfSlots hb hfit.le hslots]

end

section
variable (m : CalendarMoment) (e : EncodedFields) {i : Nat}

theorem slotMap_minute (hi : i < 7) : slotMap m e (21 + i) = slotOfElement e.minute i := by
  simp (disch := omega) only [slotMap, if_neg, if_pos, Nat.add_sub_cancel_left]

theorem slotMap_hour (hi : i < 6) : slotMap m e (29 + i) = slotOfElement e.hour i := by
  simp (disch := omega) only [slotMap, if_neg, if_pos, Nat.add_sub_cancel_left]

theorem slotMap_date (hi : i < 22) : slotMap m e (36 + i) = slotOfElement e.date i := by
  simp (disch := omega) only [slotMap, if_neg, if_pos, Nat.add_sub_cancel_left]

end

/-- Settles O17: xor and count agree by induction on the sequence; in a built frame the slots before each
parity slot hold the field whose parity the machine put there. -/
theorem parityIsEven : Obligations.ParityIsEven := by
  refine ⟨fun b => ?_, fun b => evenParity_eq_true_iff, count_true_append_evenParity, fun m f h => ?_⟩
  · rw [foldl_xor_eq, Bool.false_xor]
  · rw [buildFrame_eq_ok h]
    exact ⟨slot_after_field_is_its_parity (bcdBitsOf_length m.minute 7) (by decide)
        (fun _ => slotMap_minute m (encodedFieldsOf m)) rfl,
      slot_after_field_is_its_parity (bcdBitsOf_length m.hour 6) (by decide)
        (fun _ => slotMap_hour m (encodedFieldsOf m)) rfl,
      slot_after_field_is_its_parity (dateBitsOf_length m) (by decide)
        (fun _ => slotMap_date m (encodedFieldsOf m)) rfl⟩

end Sys2Proof.Machine
end

section
/-! When the modulation stage fails (42_envelope_modulator.md R83): which ConfigError it reports, and what
MODULATE leaves behind. -/

namespace Sys2Proof.Machine

section
variable {c : EnvelopeConfig}

/-! ### The configuration check -/

theorem configError_of_rate_nonpos (hr : c.sampleRate ≤ 0) :
    configError c = some (.config .cfgSampleRate c.sampleRate) := if_pos hr

theorem configError_of_carrier_nonpos (hr : 0 < c.sampleRate) (hfc : c.carrierFrequency ≤ 0) :
    configError c = some (.config .cfgCarrierFrequency c.carrierFrequency) := by
  rw [configError, if_neg hr.not_ge, if_pos hfc]

theorem modulateFrame_eq_error_iff {f : Frame} {e : BlockError} :
    modulateFrame f c = .error e ↔ configError c = some e := by
  unfold modulateFrame
  cases configError c <;> simp

/-- The configuration check is the only way Envelope fails. -/
theorem exists_modulateFrame_eq_error_iff {f : Frame} :
    (∃ e, modulateFrame f c = .error e) ↔ c.sampleRate ≤ 0 ∨ c.carrierFrequency ≤ 0 := by
  calc (∃ e, modulateFrame f c = .error e) ↔ configError c ≠ none := by
        simp only [modulateFrame_eq_error_iff, Option.ne_none_iff_exists']
    _ ↔ c.sampleRate ≤ 0 ∨ c.carrierFrequency ≤ 0 := by
        rw [ne_eq, configError_eq_none_iff, not_and_or, not_lt, not_lt]

/-! ### What the command leaves behind -/

/-- A rate of 0 or less asks for no samples, so it fits every buffer. -/
theorem fits_of_nonpos (s : State) {r : Int} (hr : r ≤ 0) : s.Fits r := by
  intro cap _
  omega

variable {s : State} {f : Frame}

/-- MODULATE with its operands written and room for the samples is its modulation stage. -/
theorem exec_modulate_of_fits (hc : s.HoldsConfig c) (hf : s.frame = some f) (hfit : s.Fits c.sampleRate) :
    exec .modulate s = .next (s.modulationStage f c) := by
  simp [exec, execModulate, modulateOperands_eq_ok_iff.mpr ⟨hc, hf⟩, samplesOverCapacity_eq_none_iff.mpr hfit]

theorem exec_modulate_of_configError {e : BlockError} (hc : s.HoldsConfig c) (hf : s.frame = some f)
    (hfit : s.Fits c.sampleRate) (he : configError c = some e) :
    exec .modulate s = .next (s.raise e [.envelope]) := by
  rw [exec_modulate_of_fits hc hf hfit, State.modulationStage, modulateFrame_eq_error_iff.mpr he]

end

/-- Settles O21: the configuration check looks at the rate and then at the carrier, and its error is what
the command raises on the ENV registers. -/
theorem modulateReportsTheConfigError : Obligations.ModulateReportsTheConfigError := by
  refine ⟨fun s c f hc hf hr => ?_, fun s c f hc hf hr hfit hfc => ?_,
    fun _ _ => exists_modulateFrame_eq_error_iff⟩
  · exact exec_modulate_of_configError hc hf (fits_of_nonpos s hr) (configError_of_rate_nonpos hr)
  · exact exec_modulate_of_configError hc hf hfit (configError_of_carrier_nonpos hr hfc)

end Sys2Proof.Machine
end

section
/-! The samples of an envelope by their index (42_envelope_modulator.md R82): how many there are (R89),
which sample stands at an index, and the phase there (R86). -/

namespace Sys2Proof.Machine

section
variable {f : Frame} {c : EnvelopeConfig} {e : Envelope}

/-! ### Number and place of the samples -/

theorem samples_of_modulateFrame (h : modulateFrame f c = .ok e) :
    e.samples = (List.range (60 * c.sampleRate.toNat)).map (sampleAt f c) := by
  obtain ⟨-, -, rfl⟩ := modulateFrame_eq_ok_iff.mp h
  rfl

theorem samples_length_of_modulateFrame (h : modulateFrame f c = .ok e) :
    e.samples.length = 60 * c.sampleRate.toNat := by
  simp [samples_of_modulateFrame h]

theorem eq_sampleAt_of_samples_getElem? (h : modulateFrame f c = .ok e) {n : Nat} {x : Sample}
    (hx : e.samples[n]? = some x) : x = sampleAt f c n := by
  rw [samples_of_modulateFrame h] at hx
  obtain ⟨hn, rfl⟩ := List.getElem?_eq_some_iff.mp hx
  rw [List.getElem_map, List.getElem_range]

/-! ### The carrier phase -/

@[simp] theorem sampleAt_phase (f : Frame) (c : EnvelopeConfig) (n : Nat) :
    (sampleAt f c n).phase = carrierPhase c n := rfl

theorem carrierPhase_eq_fract (c : EnvelopeConfig) (n : Nat) :
    carrierPhase c n = Int.fract (c.carrierFrequency * n / c.sampleRate) := rfl

theorem carrierPhase_zero (c : EnvelopeConfig) : carrierPhase c 0 = 0 := by
  simp [carrierPhase_eq_fract]

/-- From one sample to the next the phase advances by `fc / r`, up to a whole turn. -/
theorem carrierPhase_succ (c : EnvelopeConfig) (n : Nat) :
    ∃ z : Int, carrierPhase c (n + 1) = carrierPhase c n + c.carrierFrequency / c.sampleRate + z := by
  have hstep : c.carrierFrequency * (n + 1 : Nat) / c.sampleRate =
      c.carrierFrequency * n / c.sampleRate + c.carrierFrequency / c.sampleRate := by
    push_cast
    ring
  refine ⟨⌊c.carrierFrequency * n / c.sampleRate⌋ - ⌊c.carrierFrequency * (n + 1 : Nat) / c.sampleRate⌋, ?_⟩
  simp only [carrierPhase_eq_fract, Int.fract, hstep]
  push_cast
  ring

theorem phase_of_samples_getElem? (h : modulateFrame f c = .ok e) {n : Nat} {x : Sample}
    (hx : e.samples[n]? = some x) : x.phase = carrierPhase c n := by
  rw [eq_sampleAt_of_samples_getElem? h hx, sampleAt_phase]

theorem phases_of_modulateFrame (h : modulateFrame f c = .ok e) :
    e.samples.map (·.phase) = (List.range (60 * c.sampleRate.toNat)).map (carrierPhase c) := by
  rw [samples_of_modulateFrame h, List.map_map]
  rfl

end

/-- Settles O24: the samples are one for each index below `60 · r`, so that second `i` ends at
`(i + 1) · r`, within the list. -/
theorem envelopeLength : Obligations.EnvelopeLength := by
  intro f c e h
  have hlen := samples_length_of_modulateFrame h
  obtain ⟨hr, -⟩ := modulateFrame_eq_ok_iff.mp h
  refine ⟨by omega, fun i hi => ?_⟩
  have hend : i * c.sampleRate.toNat + c.sampleRate.toNat ≤ 60 * c.sampleRate.toNat := by
    rw [← Nat.succ_mul]
    exact Nat.mul_le_mul_right _ hi
  rw [List.length_take, List.length_drop, hlen]
  omega

/-- Settles O26: the phase of a sample is the carrier phase at its index, a function of the rate and the
carrier alone. -/
theorem carrierPhaseIsContinuous : Obligations.CarrierPhaseIsContinuous := by
  intro f c e h
  refine ⟨fun n x hx => ?_, fun x hx => ?_, fun n x y hx hy => ?_, fun f' c' e' h' hr hfc => ?_⟩
  · rw [phase_of_samples_getElem? h hx]
    exact ⟨carrierPhase_eq_fract c n, Int.fract_nonneg _, Int.fract_lt_one _⟩
  · rw [phase_of_samples_getElem? h hx, carrierPhase_zero]
  · rw [phase_of_samples_getElem? h hx, phase_of_samples_getElem? h hy]
    exact carrierPhase_succ c n
  · have hphase : carrierPhase c' = carrierPhase c := by
      funext n
      rw [carrierPhase, hr, hfc, carrierPhase]
    rw [phases_of_modulateFrame h', phases_of_modulateFrame h, hr, hphase]

end Sys2Proof.Machine
end

section
/-! Decoding a frame image slot by slot (30_encoding.md R51), and what a host write of FRAME makes of it
(43_pipeline.md R96, 60_exceptions.md R110). -/

namespace Sys2Proof

/-! ### Slot codes -/

/-- The reserved code 0b11 is the only one without a slot value (30_encoding.md R51). -/
theorem exists_code_eq {c : BitVec 2} (hc : c ≠ 0b11) : ∃ v : SlotValue, v.code = c := by
  have hcodes : ∀ c : BitVec 2, c = 0b00 ∨ c = 0b01 ∨ c = 0b10 ∨ c = 0b11 := by decide
  obtain rfl | rfl | rfl | rfl := hcodes c
  · exact ⟨.bit0, rfl⟩
  · exact ⟨.bit1, rfl⟩
  · exact ⟨.noPulse, rfl⟩
  · exact absurd rfl hc

@[simp] theorem slotOfCode?_code (v : SlotValue) : slotOfCode? v.code = some v := by cases v <;> rfl

@[simp] theorem slotOfCode?_reserved : slotOfCode? 0b11 = none := rfl

/-! ### One slot of the decoder -/

section
variable {image : FrameImage} {s : Nat}

theorem decodeSlots_of_reserved (n : Nat) (h : slotCodeAt image s = 0b11) :
    decodeSlots image (n + 1) s = .error s := by
  simp only [decodeSlots, h, slotOfCode?_reserved]

theorem decodeSlots_of_code (n : Nat) {v : SlotValue} (h : v.code = slotCodeAt image s) :
    decodeSlots image (n + 1) s =
      (decodeSlots image n (s + 1)).map fun vs => ⟨v :: vs.val, by simp [vs.property]⟩ := by
  simp only [decodeSlots, ← h, slotOfCode?_code]
  cases decodeSlots image n (s + 1) <;> rfl

/-! ### A run of slots -/

/-- Slots without the reserved code decode, each to the value of its code. -/
theorem exists_decodeSlots_eq_ok {n : Nat} (h : ∀ i, s ≤ i → i < s + n → slotCodeAt image i ≠ 0b11) :
    ∃ vs, decodeSlots image n s = .ok vs ∧
      ∀ i < n, vs.val[i]?.map SlotValue.code = some (slotCodeAt image (s + i)) := by
  induction n generalizing s with
  | zero => exact ⟨⟨[], rfl⟩, rfl, fun i hi => absurd hi i.not_lt_zero⟩
  | succ n ih =>
    obtain ⟨v, hv⟩ := exists_code_eq (h s le_rfl (by omega))
    obtain ⟨vs, hvs, hcodes⟩ := ih (s := s + 1) fun i hlow hhigh => h i (by omega) (by omega)
    refine ⟨⟨v :: vs.val, by simp [vs.property]⟩, by rw [decodeSlots_of_code n hv, hvs]; rfl, fun i hi => ?_⟩
    cases i with
    | zero => exact congrArg some hv
    | succ i =>
      rw [List.getElem?_cons_succ, hcodes i (by omega), Nat.add_right_comm, Nat.add_assoc]

/-- The decoder stops at the lowest slot with the reserved code (60_exceptions.md R110). -/
theorem decodeSlots_eq_error {n i : Nat} (hlow : s ≤ i) (hhigh : i < s + n) (hreserved : slotCodeAt image i = 0b11)
    (hlower : ∀ j, s ≤ j → j < i → slotCodeAt image j ≠ 0b11) : decodeSlots image n s = .error i := by
  induction n generalizing s with
  | zero => exact absurd hhigh hlow.not_gt
  | succ n ih =>
    obtain rfl | hlt := hlow.eq_or_lt
    · exact decodeSlots_of_reserved n hreserved
    · obtain ⟨v, hv⟩ := exists_code_eq (hlower s le_rfl hlt)
      have hrest : decodeSlots image n (s + 1) = .error i :=
        ih hlt (by omega) fun j hj => hlower j (by omega)
      rw [decodeSlots_of_code n hv, hrest]
      rfl

end

/-! ### The frame -/

section
variable {image : FrameImage}

theorem exists_decodeFrame_eq_ok (h : ∀ i < 60, slotCodeAt image i ≠ 0b11) :
    ∃ f, decodeFrame image = .ok f ∧
      ∀ i < 60, f.slots[i]?.map SlotValue.code = some (slotCodeAt image i) := by
  obtain ⟨⟨slots, hlen⟩, hslots, hcodes⟩ :=
    exists_decodeSlots_eq_ok (s := 0) (n := Config.slotsPerMinute) fun i _ hi => h i (by simpa using hi)
  exact ⟨⟨slots, hlen⟩, by rw [decodeFrame, hslots], by simpa only [Nat.zero_add] using hcodes⟩

theorem decodeFrame_eq_error {i : Nat} (hi : i < 60) (hreserved : slotCodeAt image i = 0b11)
    (hlower : ∀ j < i, slotCodeAt image j ≠ 0b11) : decodeFrame image = .error i := by
  rw [decodeFrame, decodeSlots_eq_error i.zero_le (by simpa using hi) hreserved fun j _ => hlower j]

end

end Sys2Proof

namespace Sys2Proof.Machine

/-- The write of a frame image to FRAME, 0x21, is the frame's write. -/
theorem hostWrite_frame_image (image : FrameImage) (s : State) :
    hostWrite 0x21 (.frame image) s = writeFrameImage image s := hostWrite_number .frame _ s

/-- Settles O44: the decoder takes the slots in order, so that it answers the frame of the image's codes or
stops at the lowest reserved one, and the write stores or reports just that. -/
theorem hostWriteOfFrame : Obligations.HostWriteOfFrame := by
  refine ⟨fun s image hcodes => ?_, fun s image i hi hreserved hlower => ?_⟩
  · obtain ⟨f, hf, hslots⟩ := exists_decodeFrame_eq_ok hcodes
    exact ⟨f, by rw [hostWrite_frame_image, writeFrameImage, hf]; rfl, hslots⟩
  · rw [hostWrite_frame_image, writeFrameImage, decodeFrame_eq_error hi hreserved hlower]

end Sys2Proof.Machine
end

section
/-! Host writes of the other registers (43_pipeline.md R97): what is stored, and what is refused. -/

namespace Sys2Proof.Machine

@[simp] theorem asNat?_natCast (w : Nat) : HostValue.asNat? (.int w) = some w := by
  simp [HostValue.asNat?, HostValue.asInt?]

theorem hostWrite_of_store {α : Type} {r : Reg} {x : HostValue} {s : State} {v : Option α} {put : α → State} {y : α}
    (hr : writeRegister r x s = store r v put) (hv : v = some y) : hostWrite r.number x s = .next (put y) := by
  rw [hostWrite_number, hr, hv, store]

/-- The five rational registers store the rational a literal denotes, be it written as one or as an integer. -/
theorem hostWrite_rational {x : HostValue} {q : Rat} (hx : HostValue.asRat? x = some q) (s : State) :
    hostWrite 0x11 x s = .next { s with cfgCarrierFrequency := some q } ∧
    hostWrite 0x12 x s = .next { s with cfgReducedDuration0 := some q } ∧
    hostWrite 0x13 x s = .next { s with cfgReducedDuration1 := some q } ∧
    hostWrite 0x14 x s = .next { s with cfgLowAmplitude := some q } ∧
    hostWrite 0x15 x s = .next { s with cfgHighAmplitude := some q } :=
  ⟨hostWrite_of_store (r := .cfgCarrierFrequency) (y := q) rfl hx,
    hostWrite_of_store (r := .cfgReducedDuration0) (y := q) rfl hx,
    hostWrite_of_store (r := .cfgReducedDuration1) (y := q) rfl hx,
    hostWrite_of_store (r := .cfgLowAmplitude) (y := q) rfl hx,
    hostWrite_of_store (r := .cfgHighAmplitude) (y := q) rfl hx⟩

/-- A register without a write domain is read-only (10_state.md R11). -/
theorem hostWrite_of_readOnly {r : Reg} (hr : r.writeDomain = none) (x : HostValue) (s : State) :
    hostWrite r.number x s = .fault (.accessRefused r.number .write) := by
  rw [hostWrite_number]
  cases r with
  | bcdOut | envSamples | envSampleRate | envPeakScale | status => rfl
  | _ => cases hr

theorem hostWrite_of_unassigned {n : RegNum} (hn : ∀ r : Reg, r.number ≠ n) (x : HostValue) (s : State) :
    hostWrite n x s = .fault (.accessRefused n .write) := by
  rw [hostWrite, ofNumber?_eq_none hn]

/-- Settles O43: the write of a literal of the register's domain stores the value it denotes; a number whose
register has no write domain, or that names no register, is refused. -/
theorem hostWriteStoresOrIsRefusedAccess : Obligations.HostWriteStoresOrIsRefusedAccess := by
  refine ⟨fun s v => ?integers, fun s b => ?booleans, fun s w => ?width, fun s q => ?rationals,
    fun s v => ?integersAsRationals, fun s n x hn => ?refused⟩
  case integers =>
    exact ⟨hostWrite_of_store (r := .calMinute) rfl rfl, hostWrite_of_store (r := .calHour) rfl rfl,
      hostWrite_of_store (r := .calDay) rfl rfl, hostWrite_of_store (r := .calMonth) rfl rfl,
      hostWrite_of_store (r := .calYear) rfl rfl, hostWrite_of_store (r := .calWeekday) rfl rfl,
      hostWrite_of_store (r := .bcdValue) rfl rfl, hostWrite_of_store (r := .cfgSampleRate) rfl rfl⟩
  case booleans =>
    exact ⟨hostWrite_of_store (r := .calDstActive) rfl rfl, hostWrite_of_store (r := .calDstChangePending) rfl rfl⟩
  case width => exact hostWrite_of_store (r := .bcdWidth) (y := w) rfl (asNat?_natCast w)
  case rationals => exact hostWrite_rational rfl s
  case integersAsRationals => exact hostWrite_rational rfl s
  case refused =>
    obtain rfl | rfl | rfl | rfl | rfl | hn := hn
    · exact hostWrite_of_readOnly (r := .bcdOut) rfl x s
    · exact hostWrite_of_readOnly (r := .envSamples) rfl x s
    · exact hostWrite_of_readOnly (r := .envSampleRate) rfl x s
    · exact hostWrite_of_readOnly (r := .envPeakScale) rfl x s
    · exact hostWrite_of_readOnly (r := .status) rfl x s
    · exact hostWrite_of_unassigned hn x s

end Sys2Proof.Machine
end

section
/-! Host reads (43_pipeline.md R98): a register's contents returned whole, and the reads that fault. -/

namespace Sys2Proof.Machine

/-- A register that holds a value returns it; the record of the read is all that changes. -/
theorem hostRead_of_holds {α : Type} {r : Reg} {s : State} {contents : Option α} {c : α → ReadValue} {x : α}
    (hr : readRegister r s = (operand r contents).map c) (hx : contents = some x) :
    hostRead r.number s = .next { s with returned := s.returned ++ [⟨r.number, c x⟩] } := by
  rw [hostRead_number, hr, hx]
  rfl

theorem operand_map_of_isSome_eq_false {α : Type} {r : Reg} {contents : Option α} {c : α → ReadValue}
    (h : contents.isSome = false) : (operand r contents).map c = .error (.unwrittenRead r.number) := by
  cases contents with
  | none => rfl
  | some x => cases h

/-- A register that holds `⊥` is UnwrittenRead (60_exceptions.md R107). -/
theorem readRegister_of_not_holdsValue {r : Reg} {s : State} (hcmd : r ≠ .cmd) (h : s.holdsValue r = false) :
    readRegister r s = .error (.unwrittenRead r.number) := by
  cases r with
  | status => cases h
  | cmd => exact absurd rfl hcmd
  | _ => exact operand_map_of_isSome_eq_false h

theorem hostRead_of_not_holdsValue {r : Reg} {s : State} (hcmd : r ≠ .cmd) (h : s.holdsValue r = false) :
    hostRead r.number s = .fault (.unwrittenRead r.number) := by
  rw [hostRead_number, readRegister_of_not_holdsValue hcmd h, withOperands_error]

theorem hostRead_of_unassigned {n : RegNum} (hn : ∀ r : Reg, r.number ≠ n) (s : State) :
    hostRead n s = .fault (.accessRefused n .read) := by
  rw [hostRead, ofNumber?_eq_none hn]

/-- Settles O46: a read is the read of the register the number names, which returns its contents, or faults
where it holds `⊥`, is CMD, or does not exist. -/
theorem hostReadReturnsTheValue : Obligations.HostReadReturnsTheValue := by
  refine ⟨fun s v => ?integers, fun s b => ?booleans, fun s w => ?width, fun s q => ?rationals,
    fun s b => ?bits, fun s f => ?frame, fun s xs => ?samples, fun s => ?status, fun s r => ?unwritten,
    fun s n hn => ?refused⟩
  case integers =>
    exact ⟨hostRead_of_holds (r := .calMinute) rfl, hostRead_of_holds (r := .calHour) rfl,
      hostRead_of_holds (r := .calDay) rfl, hostRead_of_holds (r := .calMonth) rfl,
      hostRead_of_holds (r := .calYear) rfl, hostRead_of_holds (r := .calWeekday) rfl,
      hostRead_of_holds (r := .bcdValue) rfl, hostRead_of_holds (r := .cfgSampleRate) rfl,
      hostRead_of_holds (r := .envSampleRate) rfl⟩
  case booleans =>
    exact ⟨hostRead_of_holds (r := .calDstActive) rfl, hostRead_of_holds (r := .calDstChangePending) rfl⟩
  case width => exact hostRead_of_holds (r := .bcdWidth) rfl
  case rationals =>
    exact ⟨hostRead_of_holds (r := .cfgCarrierFrequency) rfl, hostRead_of_holds (r := .cfgReducedDuration0) rfl,
      hostRead_of_holds (r := .cfgReducedDuration1) rfl, hostRead_of_holds (r := .cfgLowAmplitude) rfl,
      hostRead_of_holds (r := .cfgHighAmplitude) rfl, hostRead_of_holds (r := .envPeakScale) rfl⟩
  case bits => exact hostRead_of_holds (r := .bcdOut) rfl
  case frame => exact hostRead_of_holds (r := .frame) rfl
  case samples => exact hostRead_of_holds (r := .envSamples) rfl
  case status => exact hostRead_number .status s
  case unwritten => exact hostRead_of_not_holdsValue
  case refused =>
    obtain rfl | hn := hn
    · exact hostRead_number .cmd s
    · exact hostRead_of_unassigned hn s

end Sys2Proof.Machine
end

section
/-! How a command ends in a fault (60_exceptions.md R105, R107, R111): its operand reads stop at the first
register without a value, and after them only the capacity check can stop it. -/

namespace Sys2Proof.Machine

/-! ### Operands are read in order -/

/-- The first register of a list that holds no value. -/
def State.firstUnwritten (s : State) (regs : List Reg) : Option Reg := regs.find? fun r => !s.holdsValue r

/-- An operand list reads the registers `regs` in order: the first that holds no value is its fault, and it
answers where they all hold one (60_exceptions.md R105). -/
def State.ReadsInOrder {α : Type} (s : State) (regs : List Reg) (o : Except Fault α) : Prop :=
  match s.firstUnwritten regs with
  | some r => o = .error (.unwrittenRead r.number)
  | none => ∃ x, o = .ok x

section
variable {s : State} {regs regs' : List Reg} {α β : Type} {o : Except Fault α}

theorem readsInOrder_ok (x : α) : s.ReadsInOrder [] (.ok x) := ⟨x, rfl⟩

theorem readsInOrder_operand {r : Reg} {v : Option α} (hv : s.holdsValue r = v.isSome) :
    s.ReadsInOrder [r] (operand r v) := by
  cases v <;> simp [State.ReadsInOrder, State.firstUnwritten, hv]

theorem State.ReadsInOrder.error (h : s.ReadsInOrder regs o) {r : Reg} (hr : s.firstUnwritten regs = some r) :
    o = .error (.unwrittenRead r.number) := by
  simpa only [State.ReadsInOrder, hr] using h

theorem State.ReadsInOrder.ok (h : s.ReadsInOrder regs o) (hr : s.firstUnwritten regs = none) : ∃ x, o = .ok x := by
  simpa only [State.ReadsInOrder, hr] using h

/-- Operands read one list after the other are read in the order of both. -/
theorem State.ReadsInOrder.bind {k : α → Except Fault β} (h : s.ReadsInOrder regs o)
    (hk : ∀ x, s.ReadsInOrder regs' (k x)) : s.ReadsInOrder (regs ++ regs') (o >>= k) := by
  have happend : s.firstUnwritten (regs ++ regs') = (s.firstUnwritten regs).or (s.firstUnwritten regs') :=
    List.find?_append
  cases hr : s.firstUnwritten regs with
  | some r =>
    rw [State.ReadsInOrder, happend, hr, h.error hr]
    rfl
  | none =>
    obtain ⟨x, rfl⟩ := h.ok hr
    rw [State.ReadsInOrder, happend, hr]
    exact hk x

theorem readsInOrder_cons {r : Reg} {v : Option α} {k : α → Except Fault β} (hv : s.holdsValue r = v.isSome)
    (hk : ∀ x, s.ReadsInOrder regs (k x)) : s.ReadsInOrder (r :: regs) (operand r v >>= k) :=
  (readsInOrder_operand hv).bind hk

/-- A command on operands that are read in order stops at the first without a value. -/
theorem withOperands_of_firstUnwritten {run : α → Host.Outcome State Fault Refusal} {r : Reg}
    (h : s.ReadsInOrder regs o) (hr : s.firstUnwritten regs = some r) :
    withOperands o run = .fault (.unwrittenRead r.number) := by
  rw [h.error hr, withOperands_error]

/-- Where a command that ends in a fault meets it: at an operand, or after they are read. -/
theorem withOperands_eq_fault {run : α → Host.Outcome State Fault Refusal} {e : Fault}
    (h : s.ReadsInOrder regs o) (hrun : withOperands o run = .fault e) :
    (∃ r, s.firstUnwritten regs = some r ∧ e = .unwrittenRead r.number) ∨ ∃ x, o = .ok x ∧ run x = .fault e := by
  cases hr : s.firstUnwritten regs with
  | some r =>
    rw [withOperands_of_firstUnwritten h hr] at hrun
    cases hrun
    exact .inl ⟨r, rfl, rfl⟩
  | none =>
    obtain ⟨x, rfl⟩ := h.ok hr
    exact .inr ⟨x, rfl, hrun⟩

end

/-! ### The operand lists of the commands -/

theorem bcdOperands_readsInOrder (s : State) : s.ReadsInOrder (operandRegs .encodeBcd) s.bcdOperands :=
  readsInOrder_cons rfl fun _ => readsInOrder_cons rfl fun _ => readsInOrder_ok _

theorem calendar_readsInOrder (s : State) : s.ReadsInOrder setCalRegs s.calendar :=
  readsInOrder_cons rfl fun _ => readsInOrder_cons rfl fun _ => readsInOrder_cons rfl fun _ =>
  readsInOrder_cons rfl fun _ => readsInOrder_cons rfl fun _ => readsInOrder_cons rfl fun _ =>
  readsInOrder_cons rfl fun _ => readsInOrder_cons rfl fun _ => readsInOrder_ok _

theorem envelopeConfig_readsInOrder (s : State) : s.ReadsInOrder setCfgRegs s.envelopeConfig :=
  readsInOrder_cons rfl fun _ => readsInOrder_cons rfl fun _ => readsInOrder_cons rfl fun _ =>
  readsInOrder_cons rfl fun _ => readsInOrder_cons rfl fun _ => readsInOrder_cons rfl fun _ => readsInOrder_ok _

theorem modulateOperands_readsInOrder (s : State) : s.ReadsInOrder (operandRegs .modulate) s.modulateOperands :=
  (envelopeConfig_readsInOrder s).bind fun _ => readsInOrder_cons rfl fun _ => readsInOrder_ok _

theorem generateOperands_readsInOrder (s : State) : s.ReadsInOrder (operandRegs .generate) s.generateOperands :=
  (calendar_readsInOrder s).bind fun _ => (envelopeConfig_readsInOrder s).bind fun _ => readsInOrder_ok _

/-! ### The faults of the commands -/

theorem exec_of_firstUnwritten {i : Instr} {s : State} {r : Reg} (hr : s.firstUnwritten (operandRegs i) = some r) :
    exec i s = .fault (.unwrittenRead r.number) := by
  cases i with
  | encodeBcd => exact withOperands_of_firstUnwritten (bcdOperands_readsInOrder s) hr
  | buildFrame => exact withOperands_of_firstUnwritten (calendar_readsInOrder s) hr
  | modulate => exact withOperands_of_firstUnwritten (modulateOperands_readsInOrder s) hr
  | generate => exact withOperands_of_firstUnwritten (generateOperands_readsInOrder s) hr

section
variable {s : State} {c : EnvelopeConfig} {n : Nat}

theorem exec_modulate_of_overCapacity {f : Frame} (hc : s.HoldsConfig c) (hf : s.frame = some f)
    (hn : samplesOverCapacity s.envCapacity c.sampleRate = some n) :
    exec .modulate s = .fault (.capacityExceeded n) := by
  simp [exec, execModulate, modulateOperands_eq_ok_iff.mpr ⟨hc, hf⟩, hn]

theorem exec_generate_of_overCapacity {m : CalendarMoment} (hm : s.HoldsCalendar m) (hc : s.HoldsConfig c)
    (hn : samplesOverCapacity s.envCapacity c.sampleRate = some n) :
    exec .generate s = .fault (.capacityExceeded n) := by
  simp [exec, execGenerate, generateOperands_eq_ok_iff.mpr ⟨hm, hc⟩, hn]

end

/-- Everything a command can end in when it faults: the read of its first operand without a value, or, where
it produces samples, more of them than the buffer holds. -/
theorem exec_eq_fault {i : Instr} {s : State} {e : Fault} (h : exec i s = .fault e) :
    (∃ r, s.firstUnwritten (operandRegs i) = some r ∧ e = .unwrittenRead r.number) ∨
    ((i = .modulate ∨ i = .generate) ∧ ∃ rate n, s.cfgSampleRate = some rate ∧
      samplesOverCapacity s.envCapacity rate = some n ∧ e = .capacityExceeded n) := by
  cases i with
  | encodeBcd =>
    refine (withOperands_eq_fault (bcdOperands_readsInOrder s) h).imp_right ?_
    rintro ⟨⟨v, w⟩, -, hrun⟩
    dsimp only at hrun
    cases hb : encodeBcd v w <;> rw [hb] at hrun <;> cases hrun
  | buildFrame =>
    refine (withOperands_eq_fault (calendar_readsInOrder s) h).imp_right ?_
    rintro ⟨m, -, hrun⟩
    cases hb : buildFrame m <;> rw [hb] at hrun <;> cases hrun
  | modulate =>
    refine (withOperands_eq_fault (modulateOperands_readsInOrder s) h).imp_right ?_
    rintro ⟨⟨c, f⟩, hoperands, hrun⟩
    obtain ⟨⟨hrate, -⟩, hf⟩ := modulateOperands_eq_ok_iff.mp hoperands
    dsimp only at hrun
    cases hn : samplesOverCapacity s.envCapacity c.sampleRate with
    | none => rw [hn] at hrun; cases hrun
    | some n => rw [hn] at hrun; cases hrun; exact ⟨.inl rfl, _, n, hrate, hn, rfl⟩
  | generate =>
    refine (withOperands_eq_fault (generateOperands_readsInOrder s) h).imp_right ?_
    rintro ⟨⟨m, c⟩, hoperands, hrun⟩
    obtain ⟨-, hrate, -⟩ := generateOperands_eq_ok_iff.mp hoperands
    dsimp only at hrun
    cases hn : samplesOverCapacity s.envCapacity c.sampleRate with
    | some n => rw [hn] at hrun; cases hrun; exact ⟨.inr rfl, _, n, hrate, hn, rfl⟩
    | none =>
      rw [hn] at hrun
      dsimp only at hrun
      cases hb : buildFrame m <;> rw [hb] at hrun <;> cases hrun

/-- Settles O31: with the operands written the capacity check decides, and a fault of a command that is no
operand's comes from a check that an unbounded buffer passes. -/
theorem capacityExceededFaults : Obligations.CapacityExceededFaults := by
  refine ⟨fun s c f cap hc hf hcap hover => ?_, fun s m c cap hm hc hcap hover => ?_, fun i s n hcap hfault => ?_⟩
  · exact exec_modulate_of_overCapacity hc hf (samplesOverCapacity_eq_some_iff.mpr ⟨cap, hcap, hover, rfl⟩)
  · exact exec_generate_of_overCapacity hm hc (samplesOverCapacity_eq_some_iff.mpr ⟨cap, hcap, hover, rfl⟩)
  · obtain ⟨r, -, he⟩ | ⟨-, rate, k, -, hk, -⟩ := exec_eq_fault hfault
    · cases he
    · rw [hcap, samplesOverCapacity_none] at hk
      cases hk

/-- Settles O35: each command reads its operands in the listed order, and a host read reads one register. -/
theorem unwrittenReadFaults : Obligations.UnwrittenReadFaults :=
  ⟨fun _ _ _ => exec_of_firstUnwritten, fun _ _ => hostRead_of_not_holdsValue⟩

end Sys2Proof.Machine
end

section
/-! Reserved command words (30_encoding.md R45, 60_exceptions.md R109): a word that encodes no command
decodes to none, and the host's write of it to CMD is the fault. -/

namespace Sys2Proof

/-- Every row of the opcode table compares all eight bits with its command's word (30_encoding.md R43). -/
theorem opcodeRow_of_mem : ∀ row ∈ opcodeTable, row.mask = 0xFF ∧ row.pattern = encode row.instr := by decide

theorem decodeWord_of_ne_encode {c : CmdWord} (hc : ∀ i, encode i ≠ c) : decodeWord c = .error (.reserved c) := by
  have hnone : opcodeTable.find? (fun row => c &&& row.mask == row.pattern) = none := by
    refine List.find?_eq_none.mpr fun row hrow hmatch => ?_
    obtain ⟨hmask, hpattern⟩ := opcodeRow_of_mem row hrow
    have hword : c &&& 0xFF = c := BitVec.and_allOnes
    rw [hmask, hpattern, hword, beq_iff_eq] at hmatch
    exact hc row.instr hmatch.symm
  rw [decodeWord, hnone]

theorem encode_toNat_bounds (i : Instr) : 0 < (encode i).toNat ∧ (encode i).toNat < 5 := by
  cases i <;> decide

/-- The command words lie from 0x01 to 0x04, so 0x00 and the words from 0x05 up are reserved. -/
theorem decodeWord_of_reserved {c : CmdWord} (hc : c = 0x00 ∨ 0x05 ≤ c.toNat) :
    decodeWord c = .error (.reserved c) := by
  refine decodeWord_of_ne_encode ?_
  rintro i rfl
  obtain ⟨hlow, hhigh⟩ := encode_toNat_bounds i
  obtain hzero | hfive := hc
  · rw [hzero] at hlow
    exact absurd hlow (by decide)
  · omega

end Sys2Proof

namespace Sys2Proof.Machine

/-- Settles O3: the write hands the word to the decoder, which rejects it. -/
theorem reservedCommandWordFaults : Obligations.ReservedCommandWordFaults := by
  intro s c hc
  rw [hostWrite_cmd_word, writeCommand, decodeWord_of_reserved hc]

end Sys2Proof.Machine
end

section
/-! Reset (70_reset_and_hazards.md R116, R117): what the registers hold after a RESET, power-on included. -/

namespace Sys2Proof.Machine

/-- Power-on counts as a reset: a RESET of the reset state gives that state again (70_reset_and_hazards.md R116). -/
theorem resetRegisters_reset : State.reset.resetRegisters = State.reset := rfl

/-- CMD never holds a value, and RESET clears every other register than STATUS. -/
theorem resetRegisters_holdsValue {r : Reg} (hr : r ≠ .status) (s : State) :
    s.resetRegisters.holdsValue r = false := by
  cases r with
  | status => exact absurd rfl hr
  | _ => rfl

/-- Settles O5: the reset state is its own RESET, so both clauses say what RESET leaves in the registers. -/
theorem resetGivesEveryRegisterItsValue : Obligations.ResetGivesEveryRegisterItsValue := by
  refine ⟨fun r hr => ?_, rfl, fun s => ⟨s.resetRegisters, rfl, fun r hr => ?_, resetRegisters_status s⟩⟩
  · rw [← resetRegisters_reset]
    exact resetRegisters_holdsValue hr State.reset
  · exact resetRegisters_holdsValue hr s

end Sys2Proof.Machine
end

section
/-! Numbers by their digits, for any base: the base 10 and 2 of a BCD field (40_bcd_encoder.md R66) and
the base 4 of a frame image (30_encoding.md R51). -/

namespace Sys2Proof

theorem ofDigits_map_range (p : Nat) (g : Nat → Nat) (n : Nat) :
    Nat.ofDigits p ((List.range n).map g) = ((List.range n).map fun k => p ^ k * g k).sum := by
  induction n with
  | zero => rfl
  | succ n ih => simp [List.range_succ, Nat.ofDigits_append, ih]

/-- A number is read back digit by digit. -/
theorem digit_ofDigits {p : Nat} (hp : 0 < p) {L : List Nat} (hL : ∀ d ∈ L, d < p) (i : Nat) :
    Nat.ofDigits p L / p ^ i % p = L.getD i 0 := by
  rw [Nat.ofDigits_div_pow_eq_ofDigits_drop i hp L hL]
  by_cases hi : i < L.length
  · rw [List.drop_eq_getElem_cons hi, Nat.ofDigits_cons, Nat.add_mul_mod_self_left,
      Nat.mod_eq_of_lt (hL _ (List.getElem_mem hi)), List.getD_eq_getElem _ _ hi]
  · rw [List.drop_eq_nil_of_le (by omega), List.getD_eq_default _ _ (by omega)]
    simp

/-- The lowest `n` digits of a number make up its remainder. -/
theorem ofDigits_digits_of_number (p v n : Nat) :
    Nat.ofDigits p ((List.range n).map fun k => v / p ^ k % p) = v % p ^ n := by
  induction n with
  | zero => simp [Nat.mod_one]
  | succ n ih =>
    rw [List.range_succ, List.map_append, Nat.ofDigits_append, ih, Nat.mod_pow_succ]
    simp

end Sys2Proof
end

section
/-! A frame and its bit image determine each other (30_encoding.md R51): the image is the number whose
base-4 digits are the slot codes. -/

namespace Sys2Proof

theorem slotsToNat_eq_ofDigits (vs : List SlotValue) :
    slotsToNat vs = Nat.ofDigits 4 (vs.map fun v => v.code.toNat) := by
  induction vs with
  | nil => rfl
  | cons v vs ih => rw [slotsToNat, ih, List.map_cons, Nat.ofDigits_cons]

theorem code_toNat_lt_of_mem {vs : List SlotValue} : ∀ d ∈ vs.map (fun v => v.code.toNat), d < 4 := by
  simp only [List.forall_mem_map]
  exact fun v _ => v.code.isLt

theorem encodeFrame_toNat (f : Frame) :
    (encodeFrame f).toNat = Nat.ofDigits 4 (f.slots.map fun v => v.code.toNat) := by
  have hlt := Nat.ofDigits_lt_base_pow_length (b := 4) (by decide) (code_toNat_lt_of_mem (vs := f.slots))
  rw [List.length_map, f.length_eq] at hlt
  rw [encodeFrame, BitVec.toNat_ofNat, slotsToNat_eq_ofDigits]
  exact Nat.mod_eq_of_lt hlt

theorem slotCodeAt_toNat (image : FrameImage) (i : Nat) :
    (slotCodeAt image i).toNat = image.toNat / 4 ^ i % 4 := by
  rw [slotCodeAt, BitVec.extractLsb'_toNat, Nat.shiftRight_eq_div_pow, Nat.pow_mul]

/-- The code of slot `i` stands in bits `2i` and `2i+1` of the image. -/
theorem code_of_slot_eq_slotCodeAt (f : Frame) {i : Nat} (hi : i < 60) :
    f.slots[i]?.map SlotValue.code = some (slotCodeAt (encodeFrame f) i) := by
  have hlen : i < f.slots.length := by rw [f.length_eq]; exact hi
  rw [List.getElem?_eq_getElem hlen, Option.map_some, Option.some_inj]
  refine BitVec.eq_of_toNat_eq ?_
  rw [slotCodeAt_toNat, encodeFrame_toNat, digit_ofDigits (by decide) code_toNat_lt_of_mem]
  simp [hlen]

theorem slotCodeAt_encodeFrame_ne_reserved (f : Frame) {i : Nat} (hi : i < 60) :
    slotCodeAt (encodeFrame f) i ≠ 0b11 := by
  have hcode := code_of_slot_eq_slotCodeAt f hi
  obtain ⟨v, -, hv⟩ := Option.map_eq_some_iff.mp hcode
  rw [← hv]
  cases v <;> decide

theorem code_injective : Function.Injective SlotValue.code := by
  intro v w h
  rw [← Option.some_inj, ← slotOfCode?_code v, h, slotOfCode?_code]

/-- Frames with equal slot codes are equal. -/
theorem frame_eq_of_codes {f f' : Frame}
    (h : ∀ i < 60, f.slots[i]?.map SlotValue.code = f'.slots[i]?.map SlotValue.code) : f = f' := by
  obtain ⟨slots, hlen⟩ := f
  obtain ⟨slots', hlen'⟩ := f'
  have hslots : slots = slots' := by
    refine List.ext_getElem? fun i => ?_
    by_cases hi : i < 60
    · exact Option.map_injective code_injective (h i hi)
    · have hout : 60 ≤ i := Nat.le_of_not_lt hi
      rw [List.getElem?_eq_none (hlen.le.trans hout), List.getElem?_eq_none (hlen'.le.trans hout)]
  subst hslots
  rfl

/-- Images with equal slot codes are equal. -/
theorem image_eq_of_slotCodes {image image' : FrameImage}
    (h : ∀ i < 60, slotCodeAt image i = slotCodeAt image' i) : image = image' := by
  have hdigits : ∀ x : FrameImage,
      x.toNat = Nat.ofDigits 4 ((List.range 60).map fun i => (slotCodeAt x i).toNat) := by
    intro x
    simp only [slotCodeAt_toNat, ofDigits_digits_of_number]
    exact (Nat.mod_eq_of_lt x.isLt).symm
  refine BitVec.eq_of_toNat_eq ?_
  rw [hdigits image, hdigits image']
  refine congrArg (Nat.ofDigits 4) (List.map_congr_left fun i hi => ?_)
  rw [h i (List.mem_range.mp hi)]

theorem decodeFrame_encodeFrame (f : Frame) : decodeFrame (encodeFrame f) = .ok f := by
  obtain ⟨f', hf', hcodes⟩ := exists_decodeFrame_eq_ok fun i hi => slotCodeAt_encodeFrame_ne_reserved f hi
  rw [hf', frame_eq_of_codes fun i hi => (hcodes i hi).trans (code_of_slot_eq_slotCodeAt f hi).symm]

/-- The decoder answers no frame for an image with the reserved code. -/
theorem slotCodeAt_ne_reserved_of_decodeFrame {image : FrameImage} {f : Frame} (h : decodeFrame image = .ok f)
    {i : Nat} (hi : i < 60) : slotCodeAt image i ≠ 0b11 := by
  induction i using Nat.strong_induction_on with
  | _ i ih =>
    intro hreserved
    rw [decodeFrame_eq_error hi hreserved fun j hj => ih j hj (hj.trans hi)] at h
    cases h

theorem encodeFrame_of_decodeFrame {image : FrameImage} {f : Frame} (h : decodeFrame image = .ok f) :
    encodeFrame f = image := by
  obtain ⟨f', hf', hcodes⟩ := exists_decodeFrame_eq_ok fun i hi => slotCodeAt_ne_reserved_of_decodeFrame h hi
  obtain rfl : f' = f := by simpa [h] using hf'.symm
  refine image_eq_of_slotCodes fun i hi => Option.some_inj.mp ?_
  rw [← code_of_slot_eq_slotCodeAt f' hi, hcodes i hi]

/-- Settles O45: the slot codes are the base-4 digits of the image, so that a frame and its image agree slot
by slot, and equal codes make equal frames and equal images. -/
theorem frameImageRoundTrip : Obligations.FrameImageRoundTrip :=
  ⟨decodeFrame_encodeFrame, fun _ _ => encodeFrame_of_decodeFrame, fun f _ => code_of_slot_eq_slotCodeAt f⟩

end Sys2Proof
end

section
/-! The digits of a BCD field (40_bcd_encoder.md R64, R66): each group of an encoding holds its decimal
digit, and the groups make up the value. -/

namespace Sys2Proof.Machine

/-! ### Groups and values as numbers in base 2 and 10 -/

theorem bitValue_testBit (d j : Nat) : bitValue (d.testBit j) = d / 2 ^ j % 2 := by
  rw [testBit_eq_decide_slice, bitValue]
  have hbit := Nat.mod_two_eq_zero_or_one (d / 2 ^ j)
  obtain h | h := hbit <;> simp [h]

theorem bcdGroupValue_eq_ofDigits (b : Bits) (k : Nat) :
    bcdGroupValue b k = Nat.ofDigits 2
      ((List.range (bcdGroupWidth b.length k)).map fun j => bitValue (b.getD (4 * k + j) false)) := by
  simp only [ofDigits_map_range, bcdGroupValue, Nat.mul_comm]

theorem decodeBcd_eq_ofDigits (b : Bits) :
    decodeBcd b = Nat.ofDigits 10 ((List.range (bcdGroups b.length)).map (bcdGroupValue b)) := by
  rw [ofDigits_map_range, decodeBcd]

/-! ### The shape of a field -/

theorem bcdGroupWidth_eq_zero {w k : Nat} (hk : bcdGroups w ≤ k) : bcdGroupWidth w k = 0 := by
  simp only [bcdGroups, bcdGroupWidth] at *
  omega

theorem lt_of_lt_bcdGroupWidth {w k j : Nat} (hj : j < bcdGroupWidth w k) : j < 4 ∧ 4 * k + j < w := by
  simp only [bcdGroupWidth] at hj
  omega

/-- A bit position is a position within its group. -/
theorem lt_bcdGroupWidth_div {w i : Nat} (hi : i < w) : i % 4 < bcdGroupWidth w (i / 4) ∧ i / 4 < bcdGroups w := by
  simp only [bcdGroups, bcdGroupWidth]
  omega

/-! ### The groups of an encoding -/

/-- Bit `j` of group `k` of a field is bit `j` of decimal digit `k`. -/
theorem bcdBitsOf_getD (v : Int) {w k j : Nat} (hj : j < bcdGroupWidth w k) :
    (bcdBitsOf v w).getD (4 * k + j) false = (decimalDigit v.toNat k).testBit j := by
  obtain ⟨hfour, hin⟩ := lt_of_lt_bcdGroupWidth hj
  have hdiv : (4 * k + j) / 4 = k := by omega
  have hmod : (4 * k + j) % 4 = j := by omega
  simp [bcdBitsOf, hin, hdiv, hmod, decimalDigit, testBit_eq_decide_slice]

theorem bcdGroupValue_bcdBitsOf (v : Int) (w k : Nat) :
    bcdGroupValue (bcdBitsOf v w) k = decimalDigit v.toNat k % 2 ^ bcdGroupWidth w k := by
  rw [bcdGroupValue_eq_ofDigits, bcdBitsOf_length, ← ofDigits_digits_of_number]
  refine congrArg (Nat.ofDigits 2) (List.map_congr_left fun j hj => ?_)
  rw [bcdBitsOf_getD v (List.mem_range.mp hj), bitValue_testBit]

/-- The digits the machine writes are decimal in every group, whatever the value and the width. -/
theorem bcdGroupValue_bcdBitsOf_le (v : Int) (w k : Nat) : bcdGroupValue (bcdBitsOf v w) k ≤ 9 := by
  rw [bcdGroupValue_bcdBitsOf]
  have hdigit : decimalDigit v.toNat k < 10 := Nat.mod_lt _ (by decide)
  have hmod := Nat.mod_le (decimalDigit v.toNat k) (2 ^ bcdGroupWidth w k)
  omega

/-- Where every digit fits its group, the groups decode to the value (40_bcd_encoder.md R66). -/
theorem decodeBcd_bcdBitsOf {v : Int} {w : Nat} (h : BcdEncodable v w) : (decodeBcd (bcdBitsOf v w) : Int) = v := by
  obtain ⟨hsign, hbound, hfits⟩ := h
  have hgroups : ∀ k ∈ List.range (bcdGroups w), bcdGroupValue (bcdBitsOf v w) k = v.toNat / 10 ^ k % 10 := by
    intro k hk
    rw [bcdGroupValue_bcdBitsOf]
    exact Nat.mod_eq_of_lt (hfits k (List.mem_range.mp hk))
  have hnat : v.toNat < 10 ^ bcdGroups w := by
    rw [Int.toNat_lt hsign]
    exact_mod_cast hbound
  rw [decodeBcd_eq_ofDigits, bcdBitsOf_length, List.map_congr_left hgroups, ofDigits_digits_of_number,
    Nat.mod_eq_of_lt hnat, Int.toNat_of_nonneg hsign]

/-! ### The weights of the bits -/

/-- A sum over the positions of a field, group by group. -/
theorem sum_groups_eq_sum_positions (F : Nat → Nat) (w n : Nat) :
    ((List.range n).map fun k => ((List.range (bcdGroupWidth w k)).map fun j => F (4 * k + j)).sum).sum =
      ((List.range (min w (4 * n))).map F).sum := by
  induction n with
  | zero => simp
  | succ n ih =>
    rw [List.range_succ, List.map_append, List.sum_append, ih, List.map_singleton, List.sum_singleton]
    by_cases hw : w ≤ 4 * n
    · have hwidth : bcdGroupWidth w n = 0 := by simp only [bcdGroupWidth]; omega
      simp [hwidth, hw, hw.trans (Nat.mul_le_mul_left 4 n.le_succ)]
    · have hpart : min w (4 * (n + 1)) = 4 * n + bcdGroupWidth w n := by simp only [bcdGroupWidth]; omega
      rw [hpart, Nat.min_eq_right (by omega), List.range_add, List.map_append, List.sum_append, List.map_map]
      rfl

theorem decodeBcd_eq_sum_weights (b : Bits) :
    decodeBcd b = ((List.range b.length).map fun i =>
      (if b.getD i false then 1 else 0) * (10 ^ (i / 4) * 2 ^ (i % 4))).sum := by
  have hlast : min b.length (4 * bcdGroups b.length) = b.length := by simp only [bcdGroups]; omega
  have hgroups := sum_groups_eq_sum_positions
    (fun i => (if b.getD i false then 1 else 0) * (10 ^ (i / 4) * 2 ^ (i % 4))) b.length (bcdGroups b.length)
  rw [hlast] at hgroups
  rw [← hgroups, decodeBcd]
  refine congrArg List.sum (List.map_congr_left fun k _ => ?_)
  rw [bcdGroupValue, ← List.sum_map_mul_left]
  refine congrArg List.sum (List.map_congr_left fun j hj => ?_)
  obtain ⟨hfour, -⟩ := lt_of_lt_bcdGroupWidth (List.mem_range.mp hj)
  have hdiv : (4 * k + j) / 4 = k := by omega
  have hmod : (4 * k + j) % 4 = j := by omega
  rw [hdiv, hmod, bitValue]
  ring

/-- Settles O10: an encoding is the spec's bits, whose groups are the decimal digits of the value. -/
theorem bcdResultDecodesToItsValue : Obligations.BcdResultDecodesToItsValue := by
  intro v w b hb
  obtain ⟨hfits, rfl⟩ := encodeBcd_eq_some_iff.mp hb
  refine ⟨bcdBitsOf_length v w, decodeBcd_bcdBitsOf hfits, fun k _ => bcdGroupValue_bcdBitsOf_le v w k, ?_⟩
  rw [decodeBcd_eq_sum_weights, bcdBitsOf_length]

/-! ### Decimal bits are an encoding -/

theorem bitValues_lt_two (b : Bits) (k n : Nat) :
    ∀ d ∈ (List.range n).map (fun j => bitValue (b.getD (4 * k + j) false)), d < 2 := by
  simp only [List.forall_mem_map]
  intro j _
  cases b.getD (4 * k + j) false <;> decide

theorem testBit_bcdGroupValue {b : Bits} {k j : Nat} (hj : j < bcdGroupWidth b.length k) :
    (bcdGroupValue b k).testBit j = b.getD (4 * k + j) false := by
  rw [testBit_eq_decide_slice, bcdGroupValue_eq_ofDigits, digit_ofDigits (by decide) (bitValues_lt_two b k _),
    List.getD_eq_getElem _ _ (by simpa using hj), List.getElem_map, List.getElem_range]
  cases b.getD (4 * k + j) false <;> rfl

theorem bcdGroupValue_lt_two_pow (b : Bits) (k : Nat) : bcdGroupValue b k < 2 ^ bcdGroupWidth b.length k := by
  have hlt := Nat.ofDigits_lt_base_pow_length (by decide) (bitValues_lt_two b k (bcdGroupWidth b.length k))
  rwa [← bcdGroupValue_eq_ofDigits, List.length_map, List.length_range] at hlt

section
variable {b : Bits} (hb : ∀ k < bcdGroups b.length, bcdGroupValue b k ≤ 9)
include hb

theorem bcdGroupValues_lt_ten : ∀ d ∈ (List.range (bcdGroups b.length)).map (bcdGroupValue b), d < 10 := by
  simp only [List.forall_mem_map, List.mem_range]
  exact fun k hk => Nat.lt_succ_of_le (hb k hk)

/-- The decimal digits of a decoded number are its groups. -/
theorem decimalDigit_decodeBcd {k : Nat} (hk : k < bcdGroups b.length) :
    decimalDigit (decodeBcd b) k = bcdGroupValue b k := by
  rw [decimalDigit, decodeBcd_eq_ofDigits, digit_ofDigits (by decide) (bcdGroupValues_lt_ten hb)]
  simp [hk]

theorem bcdEncodable_decodeBcd : BcdEncodable (decodeBcd b : Int) b.length := by
  refine ⟨Int.natCast_nonneg _, ?_, fun k hk => ?_⟩
  · have hlt := Nat.ofDigits_lt_base_pow_length (b := 10) (by decide) (bcdGroupValues_lt_ten hb)
    rw [← decodeBcd_eq_ofDigits, List.length_map, List.length_range] at hlt
    exact_mod_cast hlt
  · exact (decimalDigit_decodeBcd hb hk).trans_lt (bcdGroupValue_lt_two_pow b k)

theorem bcdBitsOf_decodeBcd : bcdBitsOf (decodeBcd b : Int) b.length = b := by
  refine List.ext_getElem (bcdBitsOf_length _ _) fun i _ hi => ?_
  obtain ⟨hwidth, hgroup⟩ := lt_bcdGroupWidth_div hi
  have hbit := bcdBitsOf_getD (decodeBcd b : Int) hwidth
  rw [Int.toNat_natCast, decimalDigit_decodeBcd hb hgroup, testBit_bcdGroupValue hwidth, Nat.div_add_mod] at hbit
  rwa [List.getD_eq_getElem, List.getD_eq_getElem] at hbit

end

/-- Settles O11: the groups of such a sequence are the decimal digits of its value. -/
theorem decimalBitsEncodeBack : Obligations.DecimalBitsEncodeBack := by
  intro b hb
  rw [encodeBcd_eq_some (bcdEncodable_decodeBcd hb), bcdBitsOf_decodeBcd hb]

end Sys2Proof.Machine
end

section
/-! Which values encode at a width (40_bcd_encoder.md R67), and what ENCODE_BCD makes of them (R69). -/

namespace Sys2Proof.Machine

theorem encodeBcd_isSome_iff {v : Int} {w : Nat} : (encodeBcd v w).isSome = true ↔ BcdEncodable v w := by
  rw [Option.isSome_iff_ne_none, ne_eq, encodeBcd_eq_none_iff, not_not]

/-! ### The widths of one and of two groups -/

theorem bcdEncodable_width_zero_iff {v : Int} : BcdEncodable v 0 ↔ v = 0 := by
  simp only [BcdEncodable]
  norm_num
  omega

/-- One group holds one digit, of at most `w` bits. -/
theorem bcdEncodable_one_group_iff {v : Int} {w : Nat} (hlow : 1 ≤ w) (hhigh : w ≤ 4) :
    BcdEncodable v w ↔ 0 ≤ v ∧ v ≤ min 9 (2 ^ w - 1) := by
  have hgroups : (w + 3) / 4 = 1 := by omega
  have hpow : ((2 : Int) ^ w) = ((2 ^ w : Nat) : Int) := by push_cast; rfl
  simp only [BcdEncodable, hgroups, Nat.lt_one_iff, forall_eq, Nat.mul_zero, Nat.sub_zero, pow_zero, Nat.div_one,
    Nat.min_eq_right hhigh, hpow]
  omega

/-- Two groups hold a full units digit and a tens digit of at most `w - 4` bits. -/
theorem bcdEncodable_two_groups_iff {v : Int} {w : Nat} (hlow : 5 ≤ w) (hhigh : w ≤ 8) :
    BcdEncodable v w ↔ 0 ≤ v ∧ v ≤ 10 * min 9 (2 ^ (w - 4) - 1) + 9 := by
  have hgroups : (w + 3) / 4 = 2 := by omega
  have hunits : min 4 w = 4 := by omega
  have htens : min 4 (w - 4) = w - 4 := by omega
  have hpow : ((2 : Int) ^ (w - 4)) = ((2 ^ (w - 4) : Nat) : Int) := by push_cast; rfl
  have htwo : ∀ P : Nat → Prop, (∀ k < 2, P k) ↔ P 0 ∧ P 1 := fun P =>
    ⟨fun h => ⟨h 0 (by decide), h 1 (by decide)⟩, fun ⟨h0, h1⟩ k hk => by interval_cases k <;> assumption⟩
  simp only [BcdEncodable, hgroups, htwo, Nat.mul_zero, Nat.sub_zero, Nat.mul_one, pow_zero, pow_one, Nat.div_one,
    hunits, htens, hpow]
  omega

theorem bcdEncodable_zero (w : Nat) : BcdEncodable 0 w := by
  refine ⟨le_rfl, pow_pos (by decide) _, fun k _ => ?_⟩
  simp

theorem bcdBitsOf_zero (w : Nat) : bcdBitsOf 0 w = List.replicate w false := by
  refine List.eq_replicate_iff.mpr ⟨bcdBitsOf_length 0 w, ?_⟩
  simp [bcdBitsOf]

/-- Settles O12: each width asks for one, two, or at least three groups. -/
theorem bcdCornerCases : Obligations.BcdCornerCases := by
  refine ⟨fun v => ?_, fun v w hlow hhigh => ?_, fun v w hlow hhigh => ?_, fun w hw => ?_, fun w => ?_, by decide⟩
  · split
    next hv => rw [encodeBcd_eq_some (bcdEncodable_width_zero_iff.mpr hv)]; rfl
    next hv => exact encodeBcd_eq_none fun h => hv (bcdEncodable_width_zero_iff.mp h)
  · exact encodeBcd_isSome_iff.trans (bcdEncodable_one_group_iff hlow hhigh)
  · exact encodeBcd_isSome_iff.trans (bcdEncodable_two_groups_iff hlow hhigh)
  · simp only [bcdGroups, bcdGroupWidth]
    exact ⟨by omega, fun k hk => by omega⟩
  · rw [encodeBcd_eq_some (bcdEncodable_zero w), bcdBitsOf_zero]

/-! ### ENCODE_BCD -/

section
variable {s : State} {v : Int} {w : Nat} (hv : s.bcdValue = some v) (hw : s.bcdWidth = some w)
include hv hw

theorem exec_encodeBcd_of_encodable (h : BcdEncodable v w) :
    exec .encodeBcd s = .next (s.withBcdOut (some (bcdBitsOf v w))).succeed := by
  simp only [exec, execEncodeBcd, bcdOperands_eq_ok_iff.mpr ⟨hv, hw⟩, withOperands_ok, encodeBcd_eq_some h]

theorem exec_encodeBcd_of_not_encodable (h : ¬BcdEncodable v w) :
    exec .encodeBcd s = .next (s.raise (.encodingWidth .bcdValue v w) [.bcdOut]) := by
  simp only [exec, execEncodeBcd, bcdOperands_eq_ok_iff.mpr ⟨hv, hw⟩, withOperands_ok, encodeBcd_eq_none h]

end

/-- Settles O7: an encodable value gives the spec's bits. -/
theorem encodeBcdWritesTheField : Obligations.EncodeBcdWritesTheField :=
  fun _ _ _ => exec_encodeBcd_of_encodable

/-- Settles O8: a value that is not encodable raises the width error on BCD_OUT. -/
theorem encodeBcdReportsTheWidthError : Obligations.EncodeBcdReportsTheWidthError :=
  fun _ _ _ => exec_encodeBcd_of_not_encodable

end Sys2Proof.Machine
end

section
/-! The frame of an in-range moment (41_frame_builder.md R71, R75; 30_encoding.md R52 to R61): its fields
encode, and its slots are laid out field by field. -/

namespace Sys2Proof.Machine

/-! ### In-range fields encode -/

/-- Every field of a moment is encodable at its fixed width (30_encoding.md R50). -/
structure CalendarMoment.FieldsEncodable (m : CalendarMoment) : Prop where
  minute : BcdEncodable m.minute 7
  hour : BcdEncodable m.hour 6
  day : BcdEncodable m.day 6
  weekday : BcdEncodable m.weekday 3
  month : BcdEncodable m.month 5
  year : BcdEncodable m.year 8

theorem fieldsEncodable_of_inRange {m : CalendarMoment} (h : m.InRange) : m.FieldsEncodable := by
  obtain ⟨hminute, hhour, hday, hmonth, hyear, hweekday⟩ := h
  constructor
  case weekday => exact (bcdEncodable_one_group_iff (by decide) (by decide)).mpr (by norm_num; omega)
  all_goals exact (bcdEncodable_two_groups_iff (by decide) (by decide)).mpr (by norm_num; omega)

/-- Settles O16: the ranges of the calendar fields lie within what their widths encode. -/
theorem noFieldFailsAfterTheRangeCheck : Obligations.NoFieldFailsAfterTheRangeCheck := by
  refine ⟨fun m hrange => ?_, fun reg v w hnone => ⟨by rw [encodeField, hnone], rfl⟩⟩
  obtain ⟨hminute, hhour, hday, hweekday, hmonth, hyear⟩ := fieldsEncodable_of_inRange hrange
  simp only [encodeBcd_isSome_iff]
  exact ⟨hminute, hhour, hday, hweekday, hmonth, hyear⟩

theorem encodeField_of_encodable {reg : Reg} {v : Int} {w : Nat} (h : BcdEncodable v w) :
    encodeField reg v w = .ok (bcdBitsOf v w) := by
  rw [encodeField, encodeBcd_eq_some h]

theorem encodeFields_of_inRange {m : CalendarMoment} (h : m.InRange) : encodeFields m = .ok (encodedFieldsOf m) := by
  obtain ⟨hminute, hhour, hday, hweekday, hmonth, hyear⟩ := fieldsEncodable_of_inRange h
  simp only [encodeFields, encodeField_of_encodable hminute, encodeField_of_encodable hhour,
    encodeField_of_encodable hday, encodeField_of_encodable hweekday, encodeField_of_encodable hmonth,
    encodeField_of_encodable hyear]
  rfl

/-- The frame the machine builds for a moment whose fields are in range. -/
def builtFrame (m : CalendarMoment) : Frame := frameOfSlots (slotMap m (encodedFieldsOf m))

/-- The frame stage succeeds exactly on the moments in range. -/
theorem buildFrame_eq_ok_iff {m : CalendarMoment} {f : Frame} :
    buildFrame m = .ok f ↔ m.InRange ∧ f = builtFrame m := by
  constructor
  · intro h
    refine ⟨firstBadField_eq_none_iff.mp ?_, buildFrame_eq_ok h⟩
    by_contra hbad
    obtain ⟨c, hc⟩ := Option.ne_none_iff_exists'.mp hbad
    rw [buildFrame, hc] at h
    cases h
  · rintro ⟨hrange, rfl⟩
    rw [buildFrame, firstBadField_eq_none_iff.mpr hrange, encodeFields_of_inRange hrange]
    rfl

/-! ### The slots in order -/

section
variable {g : Nat → SlotValue} {b : Bits} {first width : Nat}

/-- A run of slots that hold the elements of a bit sequence. -/
theorem map_range'_eq_slotsOfBits (hb : b.length = width)
    (hslots : ∀ i < width, g (first + i) = slotOfElement b i) : (List.range' first width).map g = slotsOfBits b := by
  subst hb
  refine List.ext_getElem (by simp [slotsOfBits]) fun i _ hi => ?_
  have hlt : i < b.length := by simpa [slotsOfBits] using hi
  simp [slotsOfBits, hslots i hlt, slotOfElement, hlt, slotOfBit]

end

/-- The slot ranges of 30_encoding.md R52. -/
theorem range_sixty_eq_slot_ranges :
    List.range 60 = [0] ++ List.range' 1 15 ++ List.range' 16 5 ++ List.range' 21 7 ++ [28] ++
      List.range' 29 6 ++ [35] ++ List.range' 36 22 ++ [58] ++ [59] := by decide

theorem builtFrame_slots (m : CalendarMoment) : (builtFrame m).slots = frameSlotsOf m := by
  have hslots : (builtFrame m).slots = (List.range 60).map (slotMap m (encodedFieldsOf m)) := rfl
  rw [hslots, range_sixty_eq_slot_ranges]
  simp only [List.map_append, frameSlotsOf]
  rw [map_range'_eq_slotsOfBits (bcdBitsOf_length m.minute 7) fun _ => slotMap_minute m (encodedFieldsOf m),
    map_range'_eq_slotsOfBits (bcdBitsOf_length m.hour 6) fun _ => slotMap_hour m (encodedFieldsOf m),
    map_range'_eq_slotsOfBits (dateBitsOf_length m) fun _ => slotMap_date m (encodedFieldsOf m),
    ← slotOfBit_evenParity, ← slotOfBit_evenParity, ← slotOfBit_evenParity]
  rfl

/-! ### BUILD_FRAME -/

theorem exec_buildFrame_of_ok {s : State} {m : CalendarMoment} {f : Frame} (hs : s.HoldsCalendar m)
    (hf : buildFrame m = .ok f) : exec .buildFrame s = .next (s.withFrame (some f)).succeed := by
  simp only [exec, execBuildFrame, calendar_eq_ok_iff.mpr hs, withOperands_ok, hf]

theorem blockError_kind_ne_none (e : BlockError) : e.status.kind ≠ .none := by
  cases e <;> nofun

/-- A BUILD_FRAME that ends with STATUS NONE has built a frame. -/
theorem exists_frame_of_buildFrame_success {s t : State} (h : exec .buildFrame s = .next t)
    (hkind : t.status.kind = .none) :
    ∃ m f, s.HoldsCalendar m ∧ buildFrame m = .ok f ∧ t = (s.withFrame (some f)).succeed := by
  obtain ⟨m, hm, ⟨f, hf, ht⟩ | ⟨e, -, rfl⟩⟩ := execBuildFrame_eq_next h
  · exact ⟨m, f, hm, hf, ht⟩
  · exact absurd hkind (blockError_kind_ne_none e)

theorem moment_eq_of_holdsCalendar {s : State} {m m' : CalendarMoment} (hm : s.HoldsCalendar m)
    (hm' : s.HoldsCalendar m') : m = m' :=
  Except.ok.inj ((calendar_eq_ok_iff.mpr hm).symm.trans (calendar_eq_ok_iff.mpr hm'))

/-- Settles O13: an in-range moment builds the frame of the slot map, whose ranges are those of R52. -/
theorem buildFrameWritesTheFrame : Obligations.BuildFrameWritesTheFrame :=
  fun _ m hs hrange => ⟨builtFrame m, builtFrame_slots m,
    exec_buildFrame_of_ok hs (buildFrame_eq_ok_iff.mpr ⟨hrange, rfl⟩)⟩

/-! ### The frame invariant -/

theorem slotOfBit_isBit (x : Bool) : slotOfBit x = .bit0 ∨ slotOfBit x = .bit1 := by
  cases x <;> decide

/-- A branch of the slot map that carries a bit either way. -/
theorem ite_isBit {p : Prop} [Decidable p] {v w : SlotValue} (hv : p → v = .bit0 ∨ v = .bit1)
    (hw : ¬p → w = .bit0 ∨ w = .bit1) : (if p then v else w) = .bit0 ∨ (if p then v else w) = .bit1 := by
  split
  next hp => exact hv hp
  next hp => exact hw hp

/-- Between the two markers every slot carries a bit. -/
theorem slotMap_isBit (m : CalendarMoment) (e : EncodedFields) {i : Nat} (hlow : 1 ≤ i) (hhigh : i ≤ 58) :
    slotMap m e i = .bit0 ∨ slotMap m e i = .bit1 :=
  ite_isBit (fun hfirst => by omega) fun _ =>
  ite_isBit (fun _ => .inl rfl) fun _ => ite_isBit (fun _ => slotOfBit_isBit _) fun _ =>
  ite_isBit (fun _ => slotOfBit_isBit _) fun _ => ite_isBit (fun _ => slotOfBit_isBit _) fun _ =>
  ite_isBit (fun _ => .inl rfl) fun _ => ite_isBit (fun _ => .inr rfl) fun _ =>
  ite_isBit (fun _ => slotOfBit_isBit _) fun _ => ite_isBit (fun _ => slotOfBit_isBit _) fun _ =>
  ite_isBit (fun _ => slotOfBit_isBit _) fun _ => ite_isBit (fun _ => slotOfBit_isBit _) fun _ =>
  ite_isBit (fun _ => slotOfBit_isBit _) fun hdate => ite_isBit (fun _ => slotOfBit_isBit _) fun hlast => by omega

theorem ones_eq_count_bitsAt (f : Frame) (first last : Nat) :
    Frame.ones f first last = (Frame.bitsAt f first (last + 1 - first)).count true := by
  unfold Frame.ones Frame.bitsAt
  rw [List.count_eq_countP, List.count_eq_countP, List.countP_map]
  refine List.countP_congr fun v _ => ?_
  simp

section
variable {g : Nat → SlotValue} {b : Bits} {first width : Nat}

/-- A field and the parity slot just after it hold an even number of ones. -/
theorem ones_of_field_and_parity (hb : b.length = width) (hfit : first + width < 60)
    (hslots : ∀ i < width, g (first + i) = slotOfElement b i)
    (hparity : g (first + width) = slotOfBit (evenParity b)) :
    Frame.ones (frameOfSlots g) first (first + width) % 2 = 0 := by
  have hall : ∀ i < width + 1, g (first + i) = slotOfElement (b ++ [evenParity b]) i := by
    intro i hi
    obtain hlt | rfl := Nat.lt_succ_iff_lt_or_eq.mp hi
    · rw [hslots i hlt, slotOfElement, slotOfElement, List.getD_append _ _ _ _ (hb.symm ▸ hlt)]
    · rw [hparity, slotOfElement, ← hb, List.getD_append_right _ _ _ _ le_rfl, Nat.sub_self, List.getD_cons_zero]
  have hlen : (b ++ [evenParity b]).length = width + 1 := by simp [hb]
  have hwidth : first + width + 1 - first = width + 1 := by omega
  rw [ones_eq_count_bitsAt, hwidth, bitsAt_frameOfSlots hlen (by omega) hall]
  exact count_true_append_evenParity b

end

theorem builtFrame_meetsInvariant (m : CalendarMoment) : Frame.MeetsInvariant (builtFrame m) := by
  refine ⟨rfl, rfl, fun i hlow hhigh => ?_, ?_, ?_, ?_⟩
  · rw [builtFrame, slots_frameOfSlots_getElem? _ (by omega), Option.some_inj, Option.some_inj]
    exact slotMap_isBit m _ hlow hhigh
  · exact ones_of_field_and_parity (bcdBitsOf_length m.minute 7) (by decide)
      (fun _ => slotMap_minute m (encodedFieldsOf m)) rfl
  · exact ones_of_field_and_parity (bcdBitsOf_length m.hour 6) (by decide)
      (fun _ => slotMap_hour m (encodedFieldsOf m)) rfl
  · exact ones_of_field_and_parity (dateBitsOf_length m) (by decide)
      (fun _ => slotMap_date m (encodedFieldsOf m)) rfl

/-- Slot 17 is the bit of DST and slot 18 its complement, so that exactly one of them is Bit1 (R55). -/
theorem builtFrame_dst_slots (m : CalendarMoment) :
    ((builtFrame m).slots[17]? = some .bit1 ∧ (builtFrame m).slots[18]? = some .bit0) ∨
    ((builtFrame m).slots[17]? = some .bit0 ∧ (builtFrame m).slots[18]? = some .bit1) := by
  have hslot17 : (builtFrame m).slots[17]? = some (slotOfBit m.dstActive) := rfl
  have hslot18 : (builtFrame m).slots[18]? = some (slotOfBit (!m.dstActive)) := rfl
  rw [hslot17, hslot18]
  cases m.dstActive <;> decide

/-- Settles O18: the frame is the one the slot map lays out, slot by slot. -/
theorem builtFrameMeetsTheFrameInvariant : Obligations.BuiltFrameMeetsTheFrameInvariant := by
  intro m f hf
  obtain ⟨-, -, -, hparity⟩ := parityIsEven
  obtain ⟨hminute, hhour, hdate⟩ := hparity m f hf
  obtain ⟨-, rfl⟩ := buildFrame_eq_ok_iff.mp hf
  exact ⟨(builtFrame m).length_eq, builtFrame_meetsInvariant m, hminute, hhour, hdate, rfl, builtFrame_dst_slots m⟩

/-! ### A built frame gives its moment back -/

/-- Fewer slots of a range of slots. -/
theorem bitsAt_of_range (f : Frame) {first n offset width : Nat} (h : offset + width ≤ n) :
    Frame.bitsAt f (first + offset) width = ((Frame.bitsAt f first n).drop offset).take width := by
  have hwidth : min width (n - offset) = width := by omega
  simp only [Frame.bitsAt, ← List.map_drop, ← List.map_take, List.drop_take, List.take_take, List.drop_drop, hwidth]

theorem bitsAt_builtFrame_date (m : CalendarMoment) : Frame.bitsAt (builtFrame m) 36 22 = dateBitsOf m :=
  bitsAt_frameOfSlots (dateBitsOf_length m) (by decide) fun _ => slotMap_date m (encodedFieldsOf m)

theorem bitsAt_builtFrame_date_field (m : CalendarMoment) {offset width : Nat} (h : offset + width ≤ 22) :
    Frame.bitsAt (builtFrame m) (36 + offset) width = ((dateBitsOf m).drop offset).take width := by
  rw [bitsAt_of_range _ h, bitsAt_builtFrame_date]

/-- Settles O19: the slots of each field hold its encoding, which decodes to the field. -/
theorem builtFrameDecodesToItsCalendar : Obligations.BuiltFrameDecodesToItsCalendar := by
  intro s t m hs hrun hkind
  obtain ⟨m', f, hs', hf, rfl⟩ := exists_frame_of_buildFrame_success hrun hkind
  obtain rfl := moment_eq_of_holdsCalendar hs hs'
  obtain ⟨hrange, rfl⟩ := buildFrame_eq_ok_iff.mp hf
  obtain ⟨hminute, hhour, hday, hweekday, hmonth, hyear⟩ := fieldsEncodable_of_inRange hrange
  have hdecodes : ∀ {v : Int} {w first : Nat}, BcdEncodable v w →
      Frame.bitsAt (builtFrame m) first w = bcdBitsOf v w →
      (decodeBcd (Frame.bitsAt (builtFrame m) first w) : Int) = v := by
    intro v w first hfits hbits
    rw [hbits, decodeBcd_bcdBitsOf hfits]
  refine ⟨builtFrame m, rfl, hdecodes hminute ?_, hdecodes hhour ?_, hdecodes hday ?_, hdecodes hweekday ?_,
    hdecodes hmonth ?_, hdecodes hyear ?_, ?_, ?_⟩
  · exact bitsAt_frameOfSlots (bcdBitsOf_length _ _) (by decide) fun _ => slotMap_minute m _
  · exact bitsAt_frameOfSlots (bcdBitsOf_length _ _) (by decide) fun _ => slotMap_hour m _
  · exact bitsAt_builtFrame_date_field m (offset := 0) (by decide)
  · exact bitsAt_builtFrame_date_field m (offset := 6) (by decide)
  · exact bitsAt_builtFrame_date_field m (offset := 9) (by decide)
  · exact bitsAt_builtFrame_date_field m (offset := 14) (by decide)
  · exact Option.some_inj.trans slotOfBit_eq_bit1_iff
  · exact Option.some_inj.trans slotOfBit_eq_bit1_iff

end Sys2Proof.Machine
end

section
/-! The values of the samples (42_envelope_modulator.md R84 to R88): the low segment of a second, the
envelope value and the phase of each sample, and the bound the peak scale gives. -/

namespace Sys2Proof.Machine

/-! ### The low-segment count -/

theorem lowCount_eq_min_max_floor (d : Rat) (r : Int) : lowCount d r = min r (max 0 ⌊d * r⌋) := rfl

section
variable {d : Rat} {r : Int} (hr : 0 < r)
include hr

/-- A duration within the second is rounded down to whole samples. -/
theorem lowCount_eq_floor (hlow : 0 ≤ d) (hhigh : d ≤ 1) : lowCount d r = ⌊d * r⌋ := by
  have hrate : (0 : Rat) < r := by exact_mod_cast hr
  have hnonneg : 0 ≤ ⌊d * r⌋ := Int.floor_nonneg.mpr (mul_nonneg hlow hrate.le)
  have hle : ⌊d * r⌋ ≤ r := by
    have hreal : d * r ≤ r := mul_le_of_le_one_left hrate.le hhigh
    exact_mod_cast (Int.floor_le (d * r)).trans hreal
  rw [lowCount_eq_min_max_floor, max_eq_right hnonneg, min_eq_right hle]

theorem lowCount_of_neg (hd : d < 0) : lowCount d r = 0 := by
  have hrate : (0 : Rat) < r := by exact_mod_cast hr
  have hfloor : ⌊d * r⌋ ≤ 0 := Int.floor_nonpos (mul_neg_of_neg_of_pos hd hrate).le
  rw [lowCount_eq_min_max_floor, max_eq_left hfloor, min_eq_right hr.le]

theorem lowCount_of_one_lt (hd : 1 < d) : lowCount d r = r := by
  have hrate : (0 : Rat) < r := by exact_mod_cast hr
  have hfloor : r ≤ ⌊d * r⌋ := Int.le_floor.mpr (le_mul_of_one_le_left hrate.le hd.le)
  rw [lowCount_eq_min_max_floor, min_eq_left (le_max_of_le_right hfloor)]

/-- The low segment lasts as long as the duration to within one sample (42_envelope_modulator.md R90). -/
theorem abs_lowCount_div_sub_le (hlow : 0 ≤ d) (hhigh : d ≤ 1) : |(lowCount d r : Rat) / r - d| ≤ 1 / r := by
  have hrate : (0 : Rat) < r := by exact_mod_cast hr
  have hscale : (lowCount d r : Rat) / r - d = (lowCount d r - d * r) / r := by field_simp
  rw [hscale, abs_div, abs_of_pos hrate, div_le_div_iff_of_pos_right hrate, lowCount_eq_floor hr hlow hhigh, abs_le]
  constructor
  · linarith [Int.lt_floor_add_one (d * r)]
  · linarith [Int.floor_le (d * r)]

end

/-- Settles O22: between its bounds the count is the floor, and the floor is within one of `d · r`. -/
theorem lowSegmentCount : Obligations.LowSegmentCount := by
  intro d r hr
  refine ⟨lowCount_eq_min_max_floor d r, fun hlow hhigh => ?_, lowCount_of_neg hr, lowCount_of_one_lt hr⟩
  rw [lowCount_eq_floor hr hlow hhigh]
  exact ⟨Int.sub_one_lt_floor (d * r), Int.floor_le (d * r)⟩

/-! ### A sample by its second and offset -/

/-- Low first, then high; a no-pulse second has no low samples (42_envelope_modulator.md R85). -/
theorem envelopeValue_eq_ite (c : EnvelopeConfig) (v : SlotValue) (k : Nat) :
    envelopeValue c v k = if (k : Int) < lowSamplesOf c v then c.lowAmplitude else c.highAmplitude := by
  cases v with
  | noPulse => rw [envelopeValue, lowSamplesOf, if_neg (Int.natCast_nonneg k).not_gt]
  | bit0 => rfl
  | bit1 => rfl

theorem envelopeValue_eq_low_or_high (c : EnvelopeConfig) (v : SlotValue) (k : Nat) :
    envelopeValue c v k = c.lowAmplitude ∨ envelopeValue c v k = c.highAmplitude := by
  rw [envelopeValue_eq_ite]
  exact ite_eq_or_eq _ _ _

section
variable (f : Frame) (c : EnvelopeConfig)

/-- Sample `k` of second `i` has the index `i · r + k` (30_encoding.md R62). -/
theorem sampleAt_second {i k : Nat} (hk : k < c.sampleRate.toNat) :
    sampleAt f c (i * c.sampleRate.toNat + k) = sampleOf f c i k := by
  have hsecond : (i * c.sampleRate.toNat + k) / c.sampleRate.toNat = i := by
    rw [Nat.mul_comm, Nat.mul_add_div (by omega), Nat.div_eq_of_lt hk, Nat.add_zero]
  have hoffset : (i * c.sampleRate.toNat + k) % c.sampleRate.toNat = k := by
    rw [Nat.mul_comm, Nat.mul_add_mod, Nat.mod_eq_of_lt hk]
  rw [sampleAt, hsecond, hoffset, envelopeValue_eq_ite]
  rfl

theorem samples_of_second (i : Nat) :
    (List.range c.sampleRate.toNat).map (fun k => sampleAt f c (i * c.sampleRate.toNat + k)) =
      (List.range c.sampleRate.toNat).map (sampleOf f c i) :=
  List.map_congr_left fun _ hk => sampleAt_second f c (List.mem_range.mp hk)

/-- The samples in index order are those of the seconds one after the other. -/
theorem map_sampleAt_range_eq_flatMap (n : Nat) :
    (List.range (n * c.sampleRate.toNat)).map (sampleAt f c) =
      (List.range n).flatMap fun i => (List.range c.sampleRate.toNat).map fun k => sampleOf f c i k := by
  induction n with
  | zero => simp
  | succ n ih =>
    rw [Nat.succ_mul, List.range_add, List.map_append, ih, List.range_succ, List.flatMap_append, List.flatMap_singleton,
      List.map_map]
    exact congrArg _ (samples_of_second f c n)

theorem samplesOf_eq : samplesOf f c = (List.range (60 * c.sampleRate.toNat)).map (sampleAt f c) :=
  (map_sampleAt_range_eq_flatMap f c 60).symm

end

section
variable {f : Frame} {c : EnvelopeConfig} {e : Envelope}

theorem samples_eq_samplesOf (h : modulateFrame f c = .ok e) : e.samples = samplesOf f c := by
  rw [samples_of_modulateFrame h, samplesOf_eq]

theorem mem_samples_of_modulateFrame (h : modulateFrame f c = .ok e) {x : Sample} (hx : x ∈ e.samples) :
    ∃ n, x = sampleAt f c n := by
  rw [samples_of_modulateFrame h] at hx
  obtain ⟨n, -, hn⟩ := List.mem_map.mp hx
  exact ⟨n, hn.symm⟩

theorem samples_getElem?_of_lt (h : modulateFrame f c = .ok e) {n : Nat} (hn : n < 60 * c.sampleRate.toNat) :
    e.samples[n]? = some (sampleAt f c n) := by
  rw [samples_of_modulateFrame h, List.getElem?_map, List.getElem?_range hn, Option.map_some]

/-- Every index of a sample lies in one of the 60 seconds. -/
theorem index_of_second_lt {i k r : Nat} (hi : i < 60) (hk : k < r) : i * r + k < 60 * r := by
  calc i * r + k < i * r + r := by omega
    _ = (i + 1) * r := by rw [Nat.succ_mul]
    _ ≤ 60 * r := Nat.mul_le_mul_right r hi

/-- The samples of one second, in order. -/
theorem second_of_modulateFrame (h : modulateFrame f c = .ok e) {i : Nat} (hi : i < 60) :
    (e.samples.drop (i * c.sampleRate.toNat)).take c.sampleRate.toNat =
      (List.range c.sampleRate.toNat).map (sampleOf f c i) := by
  refine List.ext_getElem? fun k => ?_
  by_cases hk : k < c.sampleRate.toNat
  · rw [List.getElem?_take_of_lt hk, List.getElem?_drop, samples_getElem?_of_lt h (index_of_second_lt hi hk),
      sampleAt_second f c hk]
    simp [hk]
  · simp [hk]

theorem slots_getElem?_of_lt (f : Frame) {i : Nat} (hi : i < 60) : f.slots[i]? = some (Frame.slotAt f i) := by
  have hlen : i < f.slots.length := hi.trans_eq f.length_eq.symm
  rw [List.getElem?_eq_getElem hlen, Frame.slotAt, List.getD_eq_getElem _ _ hlen]

theorem lt_sixty_of_slots_getElem? {i : Nat} {v : SlotValue} (hv : f.slots[i]? = some v) : i < 60 :=
  (List.getElem?_eq_some_iff.mp hv).1.trans_eq f.length_eq

end

/-- Settles O23: a bit second is low below its count, and the count is that of `lowCount`. -/
theorem lowSamplesComeFirst : Obligations.LowSamplesComeFirst := by
  intro f c e h
  obtain ⟨hr, -, -⟩ := modulateFrame_eq_ok_iff.mp h
  refine ⟨fun hamp i v hv _ k hk => ?_, abs_lowCount_div_sub_le hr, abs_lowCount_div_sub_le hr, fun hamp x hx => ?_⟩
  · have hk' : k < c.sampleRate.toNat := by omega
    refine ⟨_, samples_getElem?_of_lt h (index_of_second_lt (lt_sixty_of_slots_getElem? hv) hk'), ?_⟩
    rw [sampleAt_second f c hk', sampleOf, List.getD_eq_getElem?_getD, hv, Option.getD_some]
    split
    next hlow => exact iff_of_true rfl hlow
    next hhigh => exact iff_of_false hamp.symm hhigh
  · obtain ⟨n, rfl⟩ := mem_samples_of_modulateFrame h hx
    exact (envelopeValue_eq_low_or_high c _ _).elim id fun hhigh => hhigh.trans hamp.symm

/-- Settles O25: the samples of second `i` are `sampleOf` at its slot. -/
theorem secondsDependOnTheirSlotAlone : Obligations.SecondsDependOnTheirSlotAlone := by
  intro f f' c e e' h h' i hi hslot
  have hsecond : sampleOf f c i = sampleOf f' c i := by
    funext k
    rw [sampleOf, sampleOf, List.getD_eq_getElem?_getD, List.getD_eq_getElem?_getD, hslot]
  rw [second_of_modulateFrame h hi, second_of_modulateFrame h' hi, hsecond]

/-! ### The value of a sample -/

theorem abs_envelopeValue_le_peakScale (c : EnvelopeConfig) (v : SlotValue) (k : Nat) :
    |envelopeValue c v k| ≤ peakScale c := by
  obtain h | h := envelopeValue_eq_low_or_high c v k <;> rw [h]
  · exact le_max_left _ _
  · exact le_max_right _ _

/-- A carrier value within 1 does not take a sample beyond its envelope value. -/
theorem abs_value_le {sinTurns : Config.SinTurns} (hbounded : sinTurns.Bounded) (x : Sample) :
    |x.value sinTurns| ≤ (|x.env| : Rat) := by
  rw [Sample.value, abs_mul, Rat.cast_abs]
  exact mul_le_of_le_one_right (abs_nonneg _) (hbounded x.phase)

/-- Settles O27: an envelope value is one of the two amplitudes. -/
theorem peakScaleBoundsEverySample : Obligations.PeakScaleBoundsEverySample := by
  intro f c e h
  have hpeak : e.peakScale = peakScale c := by
    obtain ⟨-, -, rfl⟩ := modulateFrame_eq_ok_iff.mp h
    rfl
  have henv : ∀ x ∈ e.samples, |x.env| ≤ e.peakScale := by
    intro x hx
    obtain ⟨n, rfl⟩ := mem_samples_of_modulateFrame h hx
    rw [hpeak]
    exact abs_envelopeValue_le_peakScale c _ _
  refine ⟨hpeak, henv, fun sinTurns hbounded x hx => ?_, fun hlo hhi => ?_⟩
  · exact (abs_value_le hbounded x).trans (Rat.cast_le.mpr (henv x hx))
  · rw [hpeak, peakScale, hlo, hhi, abs_zero, max_self]

/-- Settles O52: sample `n` stands in second `n div r` at offset `n mod r`. -/
theorem sampleValueIsEnvelopeTimesCarrier : Obligations.SampleValueIsEnvelopeTimesCarrier := by
  intro f c e sinTurns n h hn
  have hindex : n < 60 * c.sampleRate.toNat := by omega
  have hsecond : n / c.sampleRate.toNat < 60 := Nat.div_lt_of_lt_mul (by rwa [Nat.mul_comm])
  refine ⟨sampleAt f c n, _, samples_getElem?_of_lt h hindex, slots_getElem?_of_lt f hsecond, ?_⟩
  rw [Sample.value, sampleAt_phase, carrierPhase_eq_fract, sampleAt, envelopeValue_eq_ite]

/-! ### Phases that come round -/

theorem carrierPhase_of_multiple {c : EnvelopeConfig} {j : Int} (hr : 0 < c.sampleRate)
    (hfc : c.carrierFrequency = j * c.sampleRate) (n : Nat) : carrierPhase c n = 0 := by
  have hrate : (c.sampleRate : Rat) ≠ 0 := by exact_mod_cast hr.ne'
  have hturns : c.carrierFrequency * n / c.sampleRate = ((j * n : Int) : Rat) := by
    rw [hfc]
    push_cast
    field_simp
  rw [carrierPhase_eq_fract, hturns, Int.fract_intCast]

/-- Settles O28: every phase is a whole number of turns, where the carrier is 0. -/
theorem carrierAtTheRateIsSilent : Obligations.CarrierAtTheRateIsSilent := by
  intro f c e j h hfc
  obtain ⟨hr, -, -⟩ := modulateFrame_eq_ok_iff.mp h
  have hphase : ∀ x ∈ e.samples, x.phase = 0 := by
    intro x hx
    obtain ⟨n, rfl⟩ := mem_samples_of_modulateFrame h hx
    exact carrierPhase_of_multiple hr hfc n
  refine ⟨hphase, fun sinTurns hquarter x hx => ?_⟩
  obtain ⟨hzero, -⟩ := hquarter
  rw [Sample.value, hphase x hx, hzero, mul_zero]

/-- Settles O30: the phase one minute on is the fractional part of `60 · fc`. -/
theorem phaseJoinsTheNextMinute : Obligations.PhaseJoinsTheNextMinute := by
  intro c hr
  have hrate : (c.sampleRate : Rat) ≠ 0 := by exact_mod_cast hr.ne'
  have hnat : ((c.sampleRate.toNat : Nat) : Rat) = c.sampleRate := by
    exact_mod_cast Int.toNat_of_nonneg hr.le
  have hturns : c.carrierFrequency * (60 * c.sampleRate.toNat : Nat) / c.sampleRate = c.carrierFrequency * 60 := by
    push_cast
    rw [hnat]
    field_simp
  rw [carrierPhase_eq_fract, hturns, Int.fract_eq_zero_iff]
  exact exists_congr fun _ => eq_comm

/-- Settles O29: the sine at the quarter turns, and its bound. -/
theorem referenceSineHasBothProperties : Obligations.ReferenceSineHasBothProperties := by
  intro sinTurns href
  refine ⟨⟨?_, ?_, ?_, ?_⟩, fun x => ?_⟩
  · rw [href, Rat.cast_zero, mul_zero, Real.sin_zero]
  · have hangle : 2 * Real.pi * ((1 / 4 : Rat) : Real) = Real.pi / 2 := by push_cast; ring
    rw [href, hangle, Real.sin_pi_div_two]
  · have hangle : 2 * Real.pi * ((1 / 2 : Rat) : Real) = Real.pi := by push_cast; ring
    rw [href, hangle, Real.sin_pi]
  · have hangle : 2 * Real.pi * ((3 / 4 : Rat) : Real) = Real.pi / 2 + Real.pi := by push_cast; ring
    rw [href, hangle, Real.sin_add_pi, Real.sin_pi_div_two]
  · rw [href]
    exact Real.abs_sin_le_one _

end Sys2Proof.Machine
end

section
/-! The envelope MODULATE writes (42_envelope_modulator.md R92), and GENERATE as the frame stage followed by
the modulation stage (43_pipeline.md R95). -/

namespace Sys2Proof.Machine

/-! ### MODULATE -/

theorem modulationStage_of_valid {s : State} {f : Frame} {c : EnvelopeConfig} (hr : 0 < c.sampleRate)
    (hfc : 0 < c.carrierFrequency) :
    s.modulationStage f c = (s.withEnvelope (some ⟨samplesOf f c, c.sampleRate, peakScale c⟩)).succeed := by
  rw [State.modulationStage, modulateFrame_eq_ok_iff.mpr ⟨hr, hfc, rfl⟩, samplesOf_eq]

theorem modulationStage_of_configError {s : State} {f : Frame} {c : EnvelopeConfig} {e : BlockError}
    (he : configError c = some e) : s.modulationStage f c = s.raise e [.envelope] := by
  rw [State.modulationStage, modulateFrame_eq_error_iff.mpr he]

/-- Settles O20: a valid configuration passes the check, and the samples by index are those by second. -/
theorem modulateWritesTheEnvelope : Obligations.ModulateWritesTheEnvelope := by
  intro s c f hc hf hr hfc hfit
  rw [exec_modulate_of_fits hc hf hfit, modulationStage_of_valid hr hfc]
  rfl

/-! ### GENERATE -/

section
variable {s : State} {m : CalendarMoment} {c : EnvelopeConfig} (hm : s.HoldsCalendar m) (hc : s.HoldsConfig c)
  (hfit : s.Fits c.sampleRate)
include hm hc hfit

theorem exec_generate_of_frame {f : Frame} (hf : buildFrame m = .ok f) :
    exec .generate s = .next ((s.withFrame (some f)).modulationStage f c) := by
  simp only [exec, execGenerate, generateOperands_eq_ok_iff.mpr ⟨hm, hc⟩, withOperands_ok,
    samplesOverCapacity_eq_none_iff.mpr hfit, hf]

theorem exec_generate_of_error {e : BlockError} (he : buildFrame m = .error e) :
    exec .generate s = .next (s.raise e [.frame, .envelope]) := by
  simp only [exec, execGenerate, generateOperands_eq_ok_iff.mpr ⟨hm, hc⟩, withOperands_ok,
    samplesOverCapacity_eq_none_iff.mpr hfit, he]

theorem exec_generate_of_inRange (hrange : m.InRange) :
    exec .generate s = .next ((s.withFrame (some (builtFrame m))).modulationStage (builtFrame m) c) :=
  exec_generate_of_frame hm hc hfit (buildFrame_eq_ok_iff.mpr ⟨hrange, rfl⟩)

theorem exec_generate_of_configError (hrange : m.InRange) {e : BlockError} (he : configError c = some e) :
    exec .generate s = .next ((s.withFrame (some (builtFrame m))).raise e [.envelope]) := by
  rw [exec_generate_of_inRange hm hc hfit hrange, modulationStage_of_configError he]

end

/-- Settles O32: both stages succeed. -/
theorem generateWritesFrameAndEnvelope : Obligations.GenerateWritesFrameAndEnvelope := by
  intro s m c hm hc hrange hr hfc hfit
  refine ⟨builtFrame m, builtFrame_slots m, ?_⟩
  rw [exec_generate_of_inRange hm hc hfit hrange, modulationStage_of_valid hr hfc]
  rfl

/-- Settles O33: a failed frame stage ends the command, and a failed modulation stage keeps the frame. -/
theorem generateReportsItsErrors : Obligations.GenerateReportsItsErrors := by
  refine ⟨fun s m c reg x hm hc hfit hbad => ?_, fun s m c hm hc hrange hr => ⟨builtFrame m, builtFrame_slots m, ?_⟩,
    fun s m c hm hc hrange hr hfit hfc => ⟨builtFrame m, builtFrame_slots m, ?_⟩⟩
  · exact exec_generate_of_error hm hc hfit (buildFrame_of_firstBad hbad)
  · exact exec_generate_of_configError hm hc (fits_of_nonpos s hr) hrange (configError_of_rate_nonpos hr)
  · exact exec_generate_of_configError hm hc hfit hrange (configError_of_carrier_nonpos hr hfc)

/-- The modulation stage overwrites STATUS and keeps FRAME. -/
theorem modulationStage_succeed (s : State) (f : Frame) (c : EnvelopeConfig) :
    s.succeed.modulationStage f c = s.modulationStage f c := by
  obtain ⟨e, st, hstage⟩ := modulationStage_uniform f c
  rw [hstage, hstage]
  rfl

/-- Settles O34: after BUILD_FRAME the configuration and the capacity are those GENERATE sees, and FRAME is
the frame GENERATE builds. -/
theorem generateIsBuildFrameThenModulate : Obligations.GenerateIsBuildFrameThenModulate := by
  intro s u hrun hkind
  obtain ⟨m, f, hm, hf, rfl⟩ := exists_frame_of_buildFrame_success hrun hkind
  have hgenerate : s.generateOperands = s.envelopeConfig.map fun c => (m, c) := by
    rw [State.generateOperands, calendar_eq_ok_iff.mpr hm]
    rfl
  have hmodulate : (s.withFrame (some f)).succeed.modulateOperands = s.envelopeConfig.map fun c => (c, f) := by
    rfl
  simp only [exec, execGenerate, execModulate, hgenerate, hmodulate]
  cases s.envelopeConfig with
  | error e => rfl
  | ok c =>
    simp only [Except.map, withOperands_ok, hf, modulationStage_succeed]
    rfl

end Sys2Proof.Machine
end

section
/-! What a command changes, when it completes, and how it reports its end (60_exceptions.md R101 to R103,
70_reset_and_hazards.md R118, R119). -/

namespace Sys2Proof.Machine

/-! ### The frame of a command -/

/-- A command that completes writes STATUS and its own result registers and nothing else
(60_exceptions.md R102). -/
structure ChangesOnlyResults (i : Instr) (s t : State) : Prop where
  inputs : s.SameInputs t
  program : t.program = s.program
  returned : t.returned = s.returned
  envCapacity : t.envCapacity = s.envCapacity
  bcdOut : i ≠ .encodeBcd → t.bcdOut = s.bcdOut
  frame : i = .encodeBcd ∨ i = .modulate → t.frame = s.frame
  envelope : i = .encodeBcd ∨ i = .buildFrame → s.SameEnvelope t

theorem sameInputs_refl (s : State) : s.SameInputs s :=
  ⟨rfl, rfl, rfl, rfl, rfl, rfl, rfl, rfl, rfl, rfl, rfl, rfl, rfl, rfl, rfl, rfl⟩

theorem exec_changesOnlyResults {i : Instr} {s t : State} (h : exec i s = .next t) : ChangesOnlyResults i s t := by
  cases i with
  | encodeBcd =>
    obtain ⟨v, w, -, -, ⟨b, -, rfl⟩ | ⟨-, rfl⟩⟩ := execEncodeBcd_eq_next h <;>
      exact ⟨sameInputs_refl s, rfl, rfl, rfl, fun hne => absurd rfl hne, fun _ => rfl, fun _ => ⟨rfl, rfl, rfl⟩⟩
  | buildFrame =>
    obtain ⟨m, -, ⟨f, -, rfl⟩ | ⟨e, -, rfl⟩⟩ := execBuildFrame_eq_next h <;>
      exact ⟨sameInputs_refl s, rfl, rfl, rfl, fun _ => rfl, by simp, fun _ => ⟨rfl, rfl, rfl⟩⟩
  | modulate =>
    obtain ⟨c, f, -, -, -, rfl⟩ := execModulate_eq_next h
    obtain ⟨e, st, hstage⟩ := modulationStage_eq f c s
    rw [hstage]
    exact ⟨sameInputs_refl s, rfl, rfl, rfl, fun _ => rfl, fun _ => rfl, by simp⟩
  | generate =>
    obtain ⟨m, c, -, -, -, ⟨f, -, rfl⟩ | ⟨e, -, rfl⟩⟩ := execGenerate_eq_next h
    · obtain ⟨e, st, hstage⟩ := modulationStage_eq f c (s.withFrame (some f))
      rw [hstage]
      exact ⟨sameInputs_refl s, rfl, rfl, rfl, fun _ => rfl, by simp, by simp⟩
    · exact ⟨sameInputs_refl s, rfl, rfl, rfl, fun _ => rfl, by simp, by simp⟩

/-- Settles O37: each end of a command writes STATUS and its own result groups over the state it began in. -/
theorem commandsChangeOnlyTheirResults : Obligations.CommandsChangeOnlyTheirResults := by
  intro i s t h
  obtain ⟨hinputs, hprogram, hreturned, hcap, hbcd, hframe, henv⟩ := exec_changesOnlyResults h
  exact ⟨hinputs, hprogram, hreturned, hcap, hbcd, hframe, henv⟩

/-! ### A command run again -/

/-- The modulation stage reads none of the registers it writes, so a second one writes the same again. -/
theorem modulationStage_idem (s : State) (f : Frame) (c : EnvelopeConfig) :
    (s.modulationStage f c).modulationStage f c = s.modulationStage f c := by
  obtain ⟨e, st, hstage⟩ := modulationStage_uniform f c
  rw [hstage, hstage]
  rfl

section
variable {s t : State}

theorem holdsCalendar_of_sameInputs {m : CalendarMoment} (hst : s.SameInputs t) (hm : s.HoldsCalendar m) :
    t.HoldsCalendar m := by
  obtain ⟨h0, h1, h2, h3, h4, h5, h6, h7, -⟩ := hst
  simpa only [State.HoldsCalendar, h0, h1, h2, h3, h4, h5, h6, h7] using hm

theorem holdsConfig_of_sameInputs {c : EnvelopeConfig} (hst : s.SameInputs t) (hc : s.HoldsConfig c) :
    t.HoldsConfig c := by
  obtain ⟨-, -, -, -, -, -, -, -, -, -, h0, h1, h2, h3, h4, h5⟩ := hst
  simpa only [State.HoldsConfig, h0, h1, h2, h3, h4, h5] using hc

end

/-- Settles O39: the operands and the capacity have not changed, and the results are written over with
themselves. -/
theorem repeatedCommandChangesNothing : Obligations.RepeatedCommandChangesNothing := by
  intro i s t h
  obtain ⟨hinputs, -, -, hcap, -⟩ := exec_changesOnlyResults h
  cases i with
  | encodeBcd =>
    obtain ⟨v, w, hv, hw, ⟨b, hb, rfl⟩ | ⟨hb, rfl⟩⟩ := execEncodeBcd_eq_next h
    · obtain ⟨hfits, rfl⟩ := encodeBcd_eq_some_iff.mp hb
      exact exec_encodeBcd_of_encodable hv hw hfits
    · exact exec_encodeBcd_of_not_encodable hv hw (encodeBcd_eq_none_iff.mp hb)
  | buildFrame =>
    obtain ⟨m, hm, ⟨f, hf, rfl⟩ | ⟨e, he, rfl⟩⟩ := execBuildFrame_eq_next h
    · exact exec_buildFrame_of_ok (holdsCalendar_of_sameInputs hinputs hm) hf
    · exact exec_buildFrame_of_error (holdsCalendar_of_sameInputs hinputs hm) he
  | modulate =>
    obtain ⟨c, f, hc, hf, hfit, rfl⟩ := execModulate_eq_next h
    have hframe : (s.modulationStage f c).frame = some f := by
      obtain ⟨e, st, hstage⟩ := modulationStage_eq f c s
      rw [hstage]
      exact hf
    have hfit' : (s.modulationStage f c).Fits c.sampleRate := by rwa [State.Fits, hcap]
    rw [exec_modulate_of_fits (holdsConfig_of_sameInputs hinputs hc) hframe hfit', modulationStage_idem]
  | generate =>
    obtain ⟨m, c, hm, hc, hfit, hend⟩ := execGenerate_eq_next h
    have hm' := holdsCalendar_of_sameInputs hinputs hm
    have hc' := holdsConfig_of_sameInputs hinputs hc
    have hfit' : t.Fits c.sampleRate := by rwa [State.Fits, hcap]
    obtain ⟨f, hf, rfl⟩ | ⟨e, he, rfl⟩ := hend
    · rw [exec_generate_of_frame hm' hc' hfit' hf]
      obtain ⟨e, st, hstage⟩ := modulationStage_uniform f c
      rw [hstage, hstage]
      rfl
    · exact exec_generate_of_error hm' hc' hfit' he

/-! ### When a command completes -/

theorem withOperands_ne_refused {α : Type} {o : Except Fault α} {run : α → Host.Outcome State Fault Refusal}
    (hrun : ∀ x r, run x ≠ .refused r) (r : Refusal) : withOperands o run ≠ .refused r := by
  cases o with
  | ok x => exact hrun x r
  | error f => nofun

theorem exec_ne_refused (i : Instr) (s : State) (r : Refusal) : exec i s ≠ .refused r := by
  cases i with
  | encodeBcd =>
    refine withOperands_ne_refused (fun (v, w) r => ?_) r
    dsimp only
    cases encodeBcd v w <;> nofun
  | buildFrame =>
    refine withOperands_ne_refused (fun m r => ?_) r
    cases buildFrame m <;> nofun
  | modulate =>
    refine withOperands_ne_refused (fun (c, f) r => ?_) r
    dsimp only
    cases samplesOverCapacity s.envCapacity c.sampleRate <;> nofun
  | generate =>
    refine withOperands_ne_refused (fun (m, c) r => ?_) r
    dsimp only
    cases samplesOverCapacity s.envCapacity c.sampleRate with
    | some n => nofun
    | none => cases buildFrame m <;> nofun

theorem firstUnwritten_eq_none_iff {s : State} {regs : List Reg} :
    s.firstUnwritten regs = none ↔ ∀ r ∈ regs, s.holdsValue r = true := by
  simp [State.firstUnwritten]

/-- A command that completes has found no operand without a value. -/
theorem holdsValue_of_exec_eq_next {i : Instr} {s t : State} (h : exec i s = .next t) :
    ∀ r ∈ operandRegs i, s.holdsValue r = true := by
  rw [← firstUnwritten_eq_none_iff]
  cases hr : s.firstUnwritten (operandRegs i) with
  | none => rfl
  | some r => rw [exec_of_firstUnwritten hr] at h; cases h

theorem fits_of_exec_eq_next {i : Instr} {s t : State} (h : exec i s = .next t) (hi : i = .modulate ∨ i = .generate)
    {r : Int} (hr : s.cfgSampleRate = some r) : s.Fits r := by
  obtain rfl | rfl := hi
  · obtain ⟨c, f, ⟨hrate, -⟩, -, hfit, -⟩ := execModulate_eq_next h
    rwa [Option.some.inj (hr.symm.trans hrate)]
  · obtain ⟨m, c, -, ⟨hrate, -⟩, hfit, -⟩ := execGenerate_eq_next h
    rwa [Option.some.inj (hr.symm.trans hrate)]

/-- Settles O36: a command is never refused, and its only faults are an operand without a value and too many
samples. -/
theorem commandsCompleteExactlyWhenReady : Obligations.CommandsCompleteExactlyWhenReady := by
  intro i s
  constructor
  · rintro ⟨t, h⟩
    exact ⟨holdsValue_of_exec_eq_next h, fun hi r => fits_of_exec_eq_next h hi⟩
  · rintro ⟨hwritten, hfits⟩
    cases h : exec i s with
    | next t => exact ⟨t, rfl⟩
    | refused r => exact absurd h (exec_ne_refused i s r)
    | fault e =>
      obtain ⟨r, hr, -⟩ | ⟨hi, rate, n, hrate, hover, -⟩ := exec_eq_fault h
      · rw [firstUnwritten_eq_none_iff.mpr hwritten] at hr
        cases hr
      · rw [samplesOverCapacity_eq_none_iff.mpr (hfits hi rate hrate)] at hover
        cases hover

/-! ### How a command reports its end -/

/-- STATUS NONE with every result written, or an error with a result at `⊥` (60_exceptions.md R101 to R103). -/
def ReportsItsEnd (i : Instr) (t : State) : Prop :=
  (t.status = Status.success ∧ ∀ r ∈ resultRegs i, t.holdsValue r = true) ∨
  (t.status.kind ≠ .none ∧ ∃ r ∈ resultRegs i, t.holdsValue r = false)

/-- The modulation stage reports on the ENV registers, whatever FRAME holds before it. -/
theorem modulationStage_reports (s : State) (f : Frame) (c : EnvelopeConfig) :
    ReportsItsEnd .modulate (s.modulationStage f c) := by
  unfold State.modulationStage
  cases modulateFrame f c with
  | ok e => exact .inl ⟨rfl, by simp [resultRegs, State.holdsValue]⟩
  | error e => exact .inr ⟨blockError_kind_ne_none e, .envSamples, by decide, rfl⟩

theorem modulationStage_frame (s : State) (f : Frame) (c : EnvelopeConfig) :
    (s.modulationStage f c).frame = s.frame := by
  obtain ⟨e, st, hstage⟩ := modulationStage_eq f c s
  rw [hstage]
  rfl

theorem exec_reports {i : Instr} {s t : State} (h : exec i s = .next t) : ReportsItsEnd i t := by
  cases i with
  | encodeBcd =>
    obtain ⟨v, w, -, -, ⟨b, -, rfl⟩ | ⟨-, rfl⟩⟩ := execEncodeBcd_eq_next h
    · exact .inl ⟨rfl, by simp [resultRegs, State.holdsValue]⟩
    · exact .inr ⟨blockError_kind_ne_none _, .bcdOut, by decide, rfl⟩
  | buildFrame =>
    obtain ⟨m, -, ⟨f, -, rfl⟩ | ⟨e, -, rfl⟩⟩ := execBuildFrame_eq_next h
    · exact .inl ⟨rfl, by simp [resultRegs, State.holdsValue]⟩
    · exact .inr ⟨blockError_kind_ne_none e, .frame, by decide, rfl⟩
  | modulate =>
    obtain ⟨c, f, -, -, -, rfl⟩ := execModulate_eq_next h
    exact modulationStage_reports s f c
  | generate =>
    obtain ⟨m, c, -, -, -, ⟨f, -, rfl⟩ | ⟨e, -, rfl⟩⟩ := execGenerate_eq_next h
    · obtain ⟨hstatus, hresults⟩ | ⟨hkind, r, hr, hempty⟩ := modulationStage_reports (s.withFrame (some f)) f c
      · refine .inl ⟨hstatus, List.forall_mem_cons.mpr ⟨?_, hresults⟩⟩
        simp [State.holdsValue, modulationStage_frame]
      · exact .inr ⟨hkind, r, List.mem_cons_of_mem _ hr, hempty⟩
    · exact .inr ⟨blockError_kind_ne_none e, .frame, by decide, rfl⟩

/-! ### What a host action changes -/

theorem decodeWord_encode (i : Instr) : decodeWord (encode i) = .ok i := by cases i <;> rfl

theorem eq_encode_of_decodeWord {c : CmdWord} {i : Instr} (h : decodeWord c = .ok i) : encode i = c := by
  by_cases hc : ∃ j, encode j = c
  · obtain ⟨j, rfl⟩ := hc
    rw [decodeWord_encode] at h
    cases h
    rfl
  · rw [decodeWord_of_ne_encode (not_exists.mp hc)] at h
    cases h

/-- An action that completes, on the state with that action taken off the queue. -/
inductive ActionEnds (a : HostAction) (s t : State) : Prop where
  | reset (ha : a = .reset) (ht : t = s.resetRegisters)
  | read (n : RegNum) (v : ReadValue) (ha : a = .read n) (ht : t = s.recordRead n v)
  | command (i : Instr) (ha : HostAction.Issues a i) (hrun : exec i s = .next t)
  | frame (f : Frame) (x : HostValue) (ha : a = .write 0x21 x) (ht : t = s.withFrame (some f))
  | input (r : Reg) (x : HostValue) (hr : r ∈ inputRegs) (ha : a = .write r.number x) (ht : s.OnlyInputChanges t r)

theorem perform_ends {a : HostAction} {s t : State} (h : perform a s = .next t) : ActionEnds a s t := by
  obtain ⟨ha, ht⟩ | ⟨n, v, ha, ht⟩ | ⟨x, c, i, ha, hx, hi, hrun⟩ | ⟨f, x, ha, ht⟩ | ⟨r, x, hr, ha, ht⟩ :=
    perform_eq_next h
  · exact .reset ha ht
  · exact .read n v ha ht
  · exact .command i ⟨x, ha, by rw [hx, eq_encode_of_decodeWord hi]⟩ hrun
  · exact .frame f x ha ht
  · exact .input r x hr ha ht

theorem step_ends {a : HostAction} {s t : State} {rest : List HostAction} (hs : s.program = a :: rest)
    (h : step s = .next t) : ActionEnds a (s.withProgram rest) t :=
  perform_ends ((step_cons hs).symm.trans h)

/-- Settles O40: each way a command ends sets STATUS and its results together, and a host access that runs no
command leaves STATUS alone. -/
theorem statusDescribesTheLastCommand : Obligations.StatusDescribesTheLastCommand := by
  refine ⟨fun i s t => exec_reports, fun s t a rest hs h hchange => ?_⟩
  cases step_ends hs h with
  | reset ha => exact .inl ha
  | command i ha => exact .inr ⟨i, ha⟩
  | read n v _ ht => subst ht; exact absurd rfl hchange
  | frame f x _ ht => subst ht; exact absurd rfl hchange
  | input r x _ _ ht => exact absurd ht.status hchange

/-- Settles O41: every other action keeps the register, and of the commands only those that write its group
change it. -/
theorem resultRegistersChangeOnlyByTheirWriters : Obligations.ResultRegistersChangeOnlyByTheirWriters := by
  intro s t a rest hs h
  cases step_ends hs h with
  | reset ha => exact ⟨fun _ => .inl ha, fun _ => .inl ha, fun _ => .inl ha⟩
  | read n v _ ht =>
    subst ht
    exact ⟨fun hne => absurd rfl hne, fun hne => absurd rfl hne, fun hne => absurd ⟨rfl, rfl, rfl⟩ hne⟩
  | frame f x ha ht =>
    subst ht
    exact ⟨fun hne => absurd rfl hne, fun _ => .inr (.inr (.inr ⟨x, ha⟩)), fun hne => absurd ⟨rfl, rfl, rfl⟩ hne⟩
  | input r x _ _ ht =>
    exact ⟨fun hne => absurd ht.bcdOut hne, fun hne => absurd ht.frame hne, fun hne => absurd ht.envelope hne⟩
  | command i ha hrun =>
    obtain ⟨-, -, -, -, hbcd, hframe, henv⟩ := exec_changesOnlyResults hrun
    cases i with
    | encodeBcd =>
      exact ⟨fun _ => .inr ha, fun hne => absurd (hframe (.inl rfl)) hne, fun hne => absurd (henv (.inl rfl)) hne⟩
    | buildFrame =>
      exact ⟨fun hne => absurd (hbcd (by decide)) hne, fun _ => .inr (.inl ha),
        fun hne => absurd (henv (.inr rfl)) hne⟩
    | modulate =>
      exact ⟨fun hne => absurd (hbcd (by decide)) hne, fun hne => absurd (hframe (.inr rfl)) hne, fun _ => .inr (.inl ha)⟩
    | generate =>
      exact ⟨fun hne => absurd (hbcd (by decide)) hne, fun _ => .inr (.inr (.inl ha)), fun _ => .inr (.inr ha)⟩

/-- Equal input registers read equally. -/
theorem readRegister_of_sameInputs {s t : State} (h : s.SameInputs t) {r : Reg} (hr : r ∈ inputRegs) :
    readRegister r t = readRegister r s := by
  obtain ⟨h0, h1, h2, h3, h4, h5, h6, h7, h8, h9, h10, h11, h12, h13, h14, h15⟩ := h
  cases r with
  | bcdOut | frame | envSamples | envSampleRate | envPeakScale | status | cmd => exact absurd hr (by decide)
  | _ => simp only [readRegister, *]

/-- Settles O42: no command writes an input register, and a host write writes the one it names. -/
theorem inputRegistersKeepTheirValues : Obligations.InputRegistersKeepTheirValues := by
  refine ⟨fun i s t h => (exec_changesOnlyResults h).inputs, fun s t a rest r hs h hr hchange => ?_⟩
  have hkeeps : ¬s.SameInputs t := fun hst => hchange (readRegister_of_sameInputs hst hr)
  cases step_ends hs h with
  | reset ha => exact .inl ha
  | read n v _ ht => subst ht; exact absurd (sameInputs_refl s) hkeeps
  | command i _ hrun => exact absurd (exec_changesOnlyResults hrun).inputs hkeeps
  | frame f x _ ht => subst ht; exact absurd (sameInputs_refl s) hkeeps
  | input r' x _ ha ht =>
    by_cases hsame : r = r'
    · exact .inr ⟨x, hsame ▸ ha⟩
    · exact absurd (ht.others r hsame) hchange

/-! ### Runs -/

/-- An action keeps what is no register, but that a read adds to the values returned. -/
theorem action_keeps_host_side {a : HostAction} {s t : State} (h : ActionEnds a s t) :
    t.program = s.program ∧ t.envCapacity = s.envCapacity ∧
      (t.returned = s.returned ∨ ∃ n v, a = .read n ∧ t.returned = s.returned ++ [⟨n, v⟩]) := by
  cases h with
  | reset _ ht => subst ht; exact ⟨rfl, rfl, .inl rfl⟩
  | read n v ha ht => subst ht; exact ⟨rfl, rfl, .inr ⟨n, v, ha, rfl⟩⟩
  | frame f x _ ht => subst ht; exact ⟨rfl, rfl, .inl rfl⟩
  | input r x _ _ ht => exact ⟨ht.program, ht.envCapacity, .inl ht.returned⟩
  | command i _ hrun =>
    obtain ⟨-, hprogram, hreturned, hcap, -⟩ := exec_changesOnlyResults hrun
    exact ⟨hprogram, hcap, .inl hreturned⟩

theorem run_succ_of_step {s u : State} (n : Nat) (h : step s = .next u) : core.run (n + 1) s = core.run n u := by
  have hcore : core.step s = .next u := h
  simp only [Host.Core.run, hcore]

theorem run_succ_eq_next {n : Nat} {s t : State} (h : core.run (n + 1) s = .next t) :
    ∃ u, step s = .next u ∧ core.run n u = .next t := by
  cases hs : step s with
  | next u => exact ⟨u, rfl, (run_succ_of_step n hs).symm.trans h⟩
  | fault e | refused e =>
    have hcore : core.step s = _ := hs
    simp only [Host.Core.run, hcore] at h
    cases h

/-- A run of one step per pending action ends with none pending. -/
theorem program_nil_of_run {p : List HostAction} {s t : State} (hs : s.program = p)
    (h : core.run p.length s = .next t) : t.program = [] := by
  induction p generalizing s with
  | nil => cases h; exact hs
  | cons a rest ih =>
    obtain ⟨u, hu, hrest⟩ := run_succ_eq_next h
    obtain ⟨hprogram, -⟩ := action_keeps_host_side (step_ends hs hu)
    exact ih hprogram hrest

/-- Settles O51: one action leaves the queue at each step. -/
theorem runEndsAfterTheLastAction : Obligations.RunEndsAfterTheLastAction := by
  refine ⟨fun s t a rest hs h => action_keeps_host_side (step_ends hs h), fun s t h => ?_⟩
  have hend := program_nil_of_run rfl h
  exact ⟨hend, step_nil hend⟩

end Sys2Proof.Machine
end

section
/-! The invariant (10_state.md R28, 30_encoding.md R63, 40_bcd_encoder.md R66): every record a command
writes to STATUS is legal, every envelope it writes is coherent, and every encoding is decimal. -/

namespace Sys2Proof.Machine

/-! ### The three parts under the operations -/

/-- The invariant looks at the ENV registers, STATUS and BCD_OUT alone. -/
theorem State.Inv.of_same {s t : State} (h : s.Inv) (henv : s.SameEnvelope t) (hstatus : t.status = s.status)
    (hbcd : t.bcdOut = s.bcdOut) : t.Inv := by
  obtain ⟨hcoherent, hlegal, hdecimal⟩ := h
  obtain ⟨hsamples, hrate, hpeak⟩ := henv
  constructor
  · simpa only [State.EnvelopeCoherent, hsamples, hrate, hpeak] using hcoherent
  · rwa [hstatus]
  · rwa [State.BcdOutDecimal, hbcd]

theorem State.Inv.withFrame {s : State} (h : s.Inv) (f : Option Frame) : (s.withFrame f).Inv :=
  h.of_same ⟨rfl, rfl, rfl⟩ rfl rfl

theorem State.Inv.withStatus {s : State} (h : s.Inv) {st : Status} (hst : st.Legal) : (s.withStatus st).Inv :=
  ⟨h.envelope, hst, h.bcdOut⟩

theorem State.Inv.withBcdOut {s : State} (h : s.Inv) {b : Option Bits} (hb : ∀ x ∈ b, ∀ k, bcdGroupValue x k ≤ 9) :
    (s.withBcdOut b).Inv :=
  ⟨h.envelope, h.status, hb⟩

theorem State.Inv.withEnvelope_none {s : State} (h : s.Inv) : (s.withEnvelope none).Inv :=
  ⟨trivial, h.status, h.bcdOut⟩

theorem success_legal : Status.success.Legal := ⟨rfl, rfl, rfl⟩

theorem State.Inv.succeed {s : State} (h : s.Inv) : s.succeed.Inv := h.withStatus success_legal

theorem State.Inv.invalidate {s : State} (h : s.Inv) (g : ResultGroup) : (s.invalidate g).Inv := by
  cases g with
  | bcdOut => exact h.withBcdOut (by simp)
  | frame => exact h.withFrame none
  | envelope => exact h.withEnvelope_none

/-- A block error keeps the invariant where its record is legal. -/
theorem State.Inv.raise {s : State} (h : s.Inv) {e : BlockError} (he : e.status.Legal) (results : List ResultGroup) :
    (s.raise e results).Inv := by
  refine State.Inv.withStatus ?_ he
  induction results generalizing s with
  | nil => exact h
  | cons g gs ih => exact ih (h.invalidate g)

/-! ### The records the commands raise -/

theorem encodingWidth_legal {v : Int} {w : Nat} (h : ¬BcdEncodable v w) :
    (BlockError.encodingWidth .bcdValue v w).status.Legal := ⟨rfl, v, rfl, h⟩

theorem configError_legal {c : EnvelopeConfig} {e : BlockError} (h : configError c = some e) : e.status.Legal := by
  unfold configError at h
  split_ifs at h with hr hfc
  · cases h
    exact ⟨.inl rfl, Int.cast_nonpos.mpr hr, rfl⟩
  · cases h
    exact ⟨.inr rfl, hfc, rfl⟩

theorem fieldRange_legal {m : CalendarMoment} {c : FieldCheck} (h : firstBadField m = some c) :
    (BlockError.fieldRange c.reg c.value).status.Legal := by
  have hcheck : c.fails = true := List.find?_some h
  have hfails : c.value < c.low ∨ c.high < c.value := of_decide_eq_true hcheck
  have hmem : (c.reg, c.low, c.high) ∈ (fieldChecks m).map fun c => (c.reg, c.low, c.high) :=
    List.mem_map_of_mem (List.mem_of_find?_eq_some h)
  exact ⟨⟨c.reg, c.value, c.low, c.high, hmem, rfl, rfl, hfails⟩, rfl⟩

/-- The frame stage fails on a field out of its range and in no other way (41_frame_builder.md R73, R75). -/
theorem buildFrame_error_legal {m : CalendarMoment} {e : BlockError} (h : buildFrame m = .error e) :
    e.status.Legal := by
  by_cases hrange : m.InRange
  · rw [buildFrame_eq_ok_iff.mpr ⟨hrange, rfl⟩] at h
    cases h
  · obtain ⟨c, hc⟩ := Option.ne_none_iff_exists'.mp (mt firstBadField_eq_none_iff.mp hrange)
    rw [buildFrame, hc] at h
    cases h
    exact fieldRange_legal hc

/-! ### The envelope of a valid configuration -/

theorem withEnvelope_coherent {f : Frame} {c : EnvelopeConfig} {e : Envelope} (h : modulateFrame f c = .ok e)
    (s : State) : (s.withEnvelope (some e)).EnvelopeCoherent := by
  obtain ⟨hpeak, henv, -⟩ := peakScaleBoundsEverySample f c e h
  obtain ⟨hlen, -⟩ := envelopeLength f c e h
  obtain ⟨hr, -, he⟩ := modulateFrame_eq_ok_iff.mp h
  have hrate : e.sampleRate = c.sampleRate := by rw [he]
  rw [← hrate] at hr hlen
  refine ⟨hr, hlen, fun x hx => ?_⟩
  obtain ⟨n, hn⟩ := mem_samples_of_modulateFrame h hx
  have hphase : x.phase = carrierPhase c n := by rw [hn, sampleAt_phase]
  rw [hphase, carrierPhase_eq_fract]
  exact ⟨Int.fract_nonneg _, Int.fract_lt_one _, henv x hx⟩

theorem State.Inv.modulationStage {s : State} (h : s.Inv) (f : Frame) (c : EnvelopeConfig) :
    (s.modulationStage f c).Inv := by
  unfold State.modulationStage
  cases hm : modulateFrame f c with
  | ok e => exact State.Inv.succeed ⟨withEnvelope_coherent hm s, h.status, h.bcdOut⟩
  | error e => exact h.raise (configError_legal (modulateFrame_eq_error_iff.mp hm)) _

/-! ### The commands and the step -/

theorem State.Inv.exec {i : Instr} {s t : State} (h : s.Inv) (hrun : exec i s = .next t) : t.Inv := by
  cases i with
  | encodeBcd =>
    obtain ⟨v, w, -, -, ⟨b, hb, rfl⟩ | ⟨hb, rfl⟩⟩ := execEncodeBcd_eq_next hrun
    · obtain ⟨-, rfl⟩ := encodeBcd_eq_some_iff.mp hb
      refine (h.withBcdOut ?_).succeed
      rintro x ⟨⟩ k
      exact bcdGroupValue_bcdBitsOf_le v w k
    · exact h.raise (encodingWidth_legal (encodeBcd_eq_none_iff.mp hb)) _
  | buildFrame =>
    obtain ⟨m, -, ⟨f, -, rfl⟩ | ⟨e, he, rfl⟩⟩ := execBuildFrame_eq_next hrun
    · exact (h.withFrame _).succeed
    · exact h.raise (buildFrame_error_legal he) _
  | modulate =>
    obtain ⟨c, f, -, -, -, rfl⟩ := execModulate_eq_next hrun
    exact h.modulationStage f c
  | generate =>
    obtain ⟨m, c, -, -, -, ⟨f, -, rfl⟩ | ⟨e, he, rfl⟩⟩ := execGenerate_eq_next hrun
    · exact (h.withFrame _).modulationStage f c
    · exact h.raise (buildFrame_error_legal he) _

theorem resetRegisters_inv (s : State) : s.resetRegisters.Inv :=
  ⟨trivial, success_legal, by simp [State.BcdOutDecimal]⟩

/-- Settles O49: no ENV register and no BCD_OUT holds a value, and STATUS is NONE. -/
theorem resetMeetsTheInvariant : Obligations.ResetMeetsTheInvariant := resetRegisters_inv State.reset

theorem ActionEnds.inv {a : HostAction} {s t : State} (hend : ActionEnds a s t) (h : s.Inv) : t.Inv := by
  cases hend with
  | reset _ ht => exact ht ▸ resetRegisters_inv s
  | read n v _ ht => exact ht ▸ h.of_same ⟨rfl, rfl, rfl⟩ rfl rfl
  | command i _ hrun => exact h.exec hrun
  | frame f x _ ht => exact ht ▸ h.withFrame _
  | input r x _ _ ht => exact h.of_same ht.envelope ht.status ht.bcdOut

/-- Settles O50: each action keeps the three parts, and a step without an action changes nothing. -/
theorem everyStepKeepsTheInvariant : Obligations.EveryStepKeepsTheInvariant := by
  intro s t h hstep
  cases hs : s.program with
  | nil =>
    rw [step_nil hs] at hstep
    cases hstep
    exact h
  | cons a rest =>
    exact (step_ends hs hstep).inv (h.of_same ⟨rfl, rfl, rfl⟩ rfl rfl)

end Sys2Proof.Machine
end

section
/-! Command words and the step that runs them (30_encoding.md R43 to R45, 20_memory.md R39, R40). -/

namespace Sys2Proof.Machine

/-- Settles O1: the four words are those of the commands, and every other one is reserved. -/
theorem commandWordsDecodeByTheOpcodeMap : Obligations.CommandWordsDecodeByTheOpcodeMap :=
  ⟨decodeWord_encode .encodeBcd, decodeWord_encode .buildFrame, decodeWord_encode .modulate,
    decodeWord_encode .generate, fun _ => decodeWord_of_reserved⟩

/-- Settles O2: a command takes one word, and the decoder inverts the encoder both ways. -/
theorem decodeAndEncodeAgree : Obligations.DecodeAndEncodeAgree := by
  refine ⟨fun i rest => ?_, fun c i => eq_encode_of_decodeWord⟩
  rw [decode, decodeWord_encode]

theorem step_of_command_word {s : State} {c : CmdWord} {i : Instr} {rest : List HostAction}
    (hs : s.program = .write 0x3F (.int c.toNat) :: rest) (hi : decodeWord c = .ok i) :
    step s = exec i { s with program := rest } := by
  rw [step_cons hs, perform, hostWrite_cmd_word, writeCommand, hi]

/-- Settles O4: the write of a word hands it to the decoder. -/
theorem stepRunsTheDecodedCommand : Obligations.StepRunsTheDecodedCommand :=
  ⟨fun _ _ _ _ => step_of_command_word, fun _ _ _ => step_cons, fun _ => step_nil⟩

/-- Settles O6: RESET writes every register, and keeps only what stands beside them. -/
theorem resetForgetsTheRegisters : Obligations.ResetForgetsTheRegisters := by
  constructor
  · rintro s t ⟨⟩
    rfl
  · rintro s s' t t' hprogram hreturned hcap ⟨⟩ ⟨⟩
    rw [State.resetRegisters, hprogram, hreturned, hcap, State.resetRegisters]

/-! ### Pseudo-instructions (30_encoding.md R48) -/

theorem run_succ_of_write {n : Nat} {s t : State} {r : RegNum} {x : HostValue} {rest : List HostAction}
    (hs : s.program = .write r x :: rest) (h : hostWrite r x { s with program := rest } = .next t) :
    core.run (n + 1) s = core.run n t :=
  run_succ_of_step n ((step_cons hs).trans h)

/-- Settles O48: each write of an expansion stores its literal in its register. -/
theorem pseudoInstructionsExpand : Obligations.PseudoInstructionsExpand := by
  refine ⟨fun s m rest hs => ?_, fun s c rest hs => ?_, fun s v w rest hs => ?_, fun s i rest hs => ?_⟩
  · rw [run_succ_of_write hs (hostWrite_of_store (r := .calMinute) rfl rfl),
      run_succ_of_write rfl (hostWrite_of_store (r := .calHour) rfl rfl),
      run_succ_of_write rfl (hostWrite_of_store (r := .calDay) rfl rfl),
      run_succ_of_write rfl (hostWrite_of_store (r := .calMonth) rfl rfl),
      run_succ_of_write rfl (hostWrite_of_store (r := .calYear) rfl rfl),
      run_succ_of_write rfl (hostWrite_of_store (r := .calWeekday) rfl rfl),
      run_succ_of_write rfl (hostWrite_of_store (r := .calDstActive) rfl rfl),
      run_succ_of_write rfl (hostWrite_of_store (r := .calDstChangePending) rfl rfl)]
    rfl
  · rw [run_succ_of_write hs (hostWrite_of_store (r := .cfgSampleRate) rfl rfl),
      run_succ_of_write rfl (hostWrite_of_store (r := .cfgCarrierFrequency) rfl rfl),
      run_succ_of_write rfl (hostWrite_of_store (r := .cfgReducedDuration0) rfl rfl),
      run_succ_of_write rfl (hostWrite_of_store (r := .cfgReducedDuration1) rfl rfl),
      run_succ_of_write rfl (hostWrite_of_store (r := .cfgLowAmplitude) rfl rfl),
      run_succ_of_write rfl (hostWrite_of_store (r := .cfgHighAmplitude) rfl rfl)]
    rfl
  · rw [run_succ_of_write hs (hostWrite_of_store (r := .bcdValue) rfl rfl),
      run_succ_of_write rfl (hostWrite_of_store (r := .bcdWidth) rfl (asNat?_natCast w))]
    rfl
  · exact step_of_command_word hs (decodeWord_encode i)

end Sys2Proof.Machine
end

section
/-! Literals and the domains of the registers (10_state.md R11; log entry 6): a host write is refused exactly
where its literal denotes no value of the domain. -/

namespace Sys2Proof.Machine

/-! ### Fitting a domain is denoting a value of it -/

theorem fits_integer (x : HostValue) : x.fits .integer = (HostValue.asInt? x).isSome := by
  cases x with
  | rat q => by_cases hq : q.den = 1 <;> simp [HostValue.fits, HostValue.asInt?, hq]
  | int v | bool b | frame image => rfl

theorem fits_natural (x : HostValue) : x.fits .natural = (HostValue.asNat? x).isSome := by
  cases x with
  | int v => by_cases hv : 0 ≤ v <;> simp [HostValue.fits, HostValue.asNat?, HostValue.asInt?, hv]
  | rat q =>
    by_cases hq : q.den = 1 <;> by_cases hv : 0 ≤ q.num <;>
      simp [HostValue.fits, HostValue.asNat?, HostValue.asInt?, hq, hv]
  | bool b | frame image => rfl

theorem fits_rational (x : HostValue) : x.fits .rational = (HostValue.asRat? x).isSome := by cases x <;> rfl

theorem fits_boolean (x : HostValue) : x.fits .boolean = (HostValue.asBool? x).isSome := by cases x <;> rfl

theorem fits_frame (x : HostValue) : x.fits .frame = (HostValue.asImage? x).isSome := by cases x <;> rfl

theorem fits_commandWord (x : HostValue) : x.fits .commandWord = (HostValue.asCmdWord? x).isSome := by
  cases x with
  | int v =>
    by_cases hv : 0 ≤ v <;> by_cases hbound : v < 256 <;>
      simp [HostValue.fits, HostValue.asCmdWord?, HostValue.asNat?, HostValue.asInt?, hv, hbound]
  | rat q =>
    by_cases hq : q.den = 1 <;> by_cases hv : 0 ≤ q.num <;> by_cases hbound : q.num < 256 <;>
      simp [HostValue.fits, HostValue.asCmdWord?, HostValue.asNat?, HostValue.asInt?, hq, hv, hbound]
  | bool b | frame image => rfl

/-! ### What is refused -/

theorem store_refused_iff {α : Type} {r : Reg} {v : Option α} {put : α → State} :
    (∃ e, store r v put = .refused e) ↔ v.isSome = false := by
  cases v with
  | none => exact iff_of_true ⟨_, rfl⟩ rfl
  | some x => exact iff_of_false nofun nofun

theorem writeFrameImage_ne_refused (s : State) (image : FrameImage) (r : Refusal) :
    writeFrameImage image s ≠ .refused r := by
  unfold writeFrameImage
  cases decodeFrame image <;> nofun

theorem writeCommand_ne_refused (s : State) (c : CmdWord) (r : Refusal) : writeCommand c s ≠ .refused r := by
  obtain ⟨i, -, h⟩ | ⟨e, -, h⟩ := writeCommand_cases c s <;> rw [h]
  · exact exec_ne_refused i s r
  · nofun

theorem writeRegister_refused_iff {r : Reg} {d : Domain} (hd : r.writeDomain = some d) (x : HostValue) (s : State) :
    (∃ e, writeRegister r x s = .refused e) ↔ x.fits d = false := by
  cases r with
  | calMinute | calHour | calDay | calMonth | calYear | calWeekday | bcdValue | cfgSampleRate =>
    cases hd
    rw [fits_integer]
    exact store_refused_iff
  | calDstActive | calDstChangePending =>
    cases hd
    rw [fits_boolean]
    exact store_refused_iff
  | bcdWidth =>
    cases hd
    rw [fits_natural]
    exact store_refused_iff
  | cfgCarrierFrequency | cfgReducedDuration0 | cfgReducedDuration1 | cfgLowAmplitude | cfgHighAmplitude =>
    cases hd
    rw [fits_rational]
    exact store_refused_iff
  | frame =>
    cases hd
    rw [fits_frame, writeRegister]
    cases HostValue.asImage? x with
    | none => exact iff_of_true ⟨_, rfl⟩ rfl
    | some image => exact iff_of_false (fun ⟨e, he⟩ => writeFrameImage_ne_refused s image e he) nofun
  | cmd =>
    cases hd
    rw [fits_commandWord, writeRegister]
    cases HostValue.asCmdWord? x with
    | none => exact iff_of_true ⟨_, rfl⟩ rfl
    | some c => exact iff_of_false (fun ⟨e, he⟩ => writeCommand_ne_refused s c e he) nofun
  | bcdOut | envSamples | envSampleRate | envPeakScale | status => cases hd

/-- A host write is refused exactly when it is not well-formed. -/
theorem hostWrite_refused_iff (n : RegNum) (x : HostValue) (s : State) :
    (∃ e, hostWrite n x s = .refused e) ↔ (HostAction.write n x).wellFormed = false := by
  cases hn : Reg.ofNumber? n with
  | none =>
    have hfault : hostWrite n x s = .fault (.accessRefused n .write) := by rw [hostWrite, hn]
    simp [hfault, HostAction.wellFormed, hn]
  | some r =>
    obtain rfl := ofNumber?_eq_some_iff.mp hn
    cases hd : r.writeDomain with
    | none => simp [hostWrite_of_readOnly hd, HostAction.wellFormed, hd]
    | some d =>
      rw [hostWrite_number, writeRegister_refused_iff hd]
      simp [HostAction.wellFormed, hd]

theorem hostRead_ne_refused (n : RegNum) (s : State) (e : Refusal) : hostRead n s ≠ .refused e := by
  unfold hostRead
  cases Reg.ofNumber? n with
  | none => nofun
  | some r => exact withOperands_ne_refused (run := fun v => .next (s.recordRead n v)) (fun v e => nofun) e

/-- Settles O47: a literal fits its register's domain exactly when it denotes a value to store there. -/
theorem onlyIllFormedActionsAreRefused : Obligations.OnlyIllFormedActionsAreRefused := by
  refine ⟨fun a s => ?_, exec_ne_refused⟩
  cases a with
  | write n x => exact hostWrite_refused_iff n x s
  | read n => exact iff_of_false (fun ⟨e, he⟩ => hostRead_ne_refused n s e he) nofun
  | reset => exact iff_of_false nofun nofun

/-! ### Whole rational literals -/

@[simp] theorem asInt?_rat_intCast (v : Int) : HostValue.asInt? (.rat v) = some v := by
  simp [HostValue.asInt?]

@[simp] theorem asNat?_rat_natCast (w : Nat) : HostValue.asNat? (.rat w) = some w := by
  have hint : HostValue.asInt? (.rat w) = some (w : Int) := asInt?_rat_intCast w
  simp [HostValue.asNat?, hint]

/-- A literal reaches CMD through the word it denotes alone. -/
theorem hostWrite_cmd_congr {x y : HostValue} (h : HostValue.asCmdWord? x = HostValue.asCmdWord? y) (s : State) :
    hostWrite 0x3F x s = hostWrite 0x3F y s := by
  have hwrite : writeRegister .cmd x s = writeRegister .cmd y s := by rw [writeRegister, writeRegister, h]
  exact (hostWrite_number .cmd x s).trans (hwrite.trans (hostWrite_number .cmd y s).symm)

/-- Settles O53: the literal denotes the integer, which the write stores. -/
theorem wholeRationalLiteralIsItsInteger : Obligations.WholeRationalLiteralIsItsInteger := by
  refine ⟨fun s v => ?_, fun s w => ?_, fun s c => hostWrite_cmd_congr ?_ s⟩
  · have hv := asInt?_rat_intCast v
    exact ⟨hostWrite_of_store (r := .calMinute) (y := v) rfl hv, hostWrite_of_store (r := .calHour) (y := v) rfl hv,
      hostWrite_of_store (r := .calDay) (y := v) rfl hv, hostWrite_of_store (r := .calMonth) (y := v) rfl hv,
      hostWrite_of_store (r := .calYear) (y := v) rfl hv, hostWrite_of_store (r := .calWeekday) (y := v) rfl hv,
      hostWrite_of_store (r := .bcdValue) (y := v) rfl hv, hostWrite_of_store (r := .cfgSampleRate) (y := v) rfl hv⟩
  · exact hostWrite_of_store (r := .bcdWidth) (y := w) rfl (asNat?_rat_natCast w)
  · rw [HostValue.asCmdWord?, HostValue.asCmdWord?, asNat?_rat_natCast, asNat?_natCast]

end Sys2Proof.Machine
end
